-- ==== Sys2Proof/Word.lean ====
section
/-! DEFINITION. The word types of the block's ports and of its one register (10_state.md R24, R27, R28). -/

namespace Sys2Proof

/-- A command word `cw` (30_encoding.md R70), and the width of the `weight`, `x`, `y` and `arg` ports (10_state.md R27). -/
abbrev Word := BitVec 32

/-- The value on a pixel port: three 16-bit channels, or one bit in bit 0 (10_state.md R29, R30). -/
abbrev Pixel := BitVec 48

/-- One colour channel on the 0..65535 scale (10_state.md R29). -/
abbrev Chan := BitVec 16

/-- The content of the pattern register: an 8x8 grid, one bit a cell (10_state.md R24). -/
abbrev Grid := BitVec 64

/-- One bit: a pattern cell, or a pixel of a 1-bit destination; 1 is black, 0 is white (10_state.md R30). -/
abbrev Bit := BitVec 1

end Sys2Proof
end

