-- ==== Sys2Proof/Config.lean ====
section
/-! DEFINITION. What the spec leaves to the model as an argument (00_scope.md R8): `OVERLAP_POLICY` and `DITHER_MATRIX` as
plain data that the state carries, and `PAT_RESET` as a free value. -/

namespace Sys2Proof

/-- `OVERLAP_POLICY`: how codes 64 and 65 decode, which both modifier ranges reach (30_encoding.md R80). -/
inductive OverlapPolicy where
  /-- 64 and 65 are `DITHER_SRC_COPY` and `DITHER_SRC_OR`. -/
  | ditherFirst
  /-- 64 and 65 are `HILITE_NOT_PAT_XOR` and `HILITE_NOT_PAT_BIC`. -/
  | hiliteFirst
  /-- 64 and 65 raise `UnsupportedMode`. -/
  | reject
  deriving DecidableEq, Repr

/-- `DITHER_MATRIX`, row after row: the entry of row yi and column xi is entry `8*yi + xi` (43_dither_and_modifiers.md R231). -/
abbrev DitherMatrix := Vector (Fin 64) 64

/-- R231: a model must take a matrix whose entries are a permutation of 0..63; 64 entries below 64 are one exactly when no
entry repeats. -/
def DitherMatrix.isPermutation (m : DitherMatrix) : Bool :=
  decide m.toList.Nodup

/-- The parameters that stay open (00_scope.md R8), fixed while the machine runs.
DESIGN CHOICE (log 4, log 5), safe for claims about every state: they are carried in the state, so such a claim holds under
every policy and every matrix. -/
structure Params where
  overlap : OverlapPolicy
  matrix : DitherMatrix
  deriving DecidableEq, Repr

/-- The 8x8 Bayer matrix, the default of `DITHER_MATRIX`, rows yi = 0 to 7 (43_dither_and_modifiers.md R231). -/
def bayerMatrix : DitherMatrix := #v[
   0, 32,  8, 40,  2, 34, 10, 42,
  48, 16, 56, 24, 50, 18, 58, 26,
  12, 44,  4, 36, 14, 46,  6, 38,
  60, 28, 52, 20, 62, 30, 54, 22,
   3, 35, 11, 43,  1, 33,  9, 41,
  51, 19, 59, 27, 49, 17, 57, 25,
  15, 47,  7, 39, 13, 45,  5, 37,
  63, 31, 55, 23, 61, 29, 53, 21]

/-- The defaults of 00_scope.md R8.
DESIGN CHOICE (log 4, log 5), unsafe: a claim about `State.reset` alone can lean on them. -/
def Params.default : Params where
  overlap := .ditherFirst
  matrix := bayerMatrix

/-- `PAT_RESET` (00_scope.md R8, 70_reset_and_hazards.md R500): any 64-bit value, drawn once per reset. A free value with no
body: `patReset n` is the n-th draw, and nothing can be proved of it.
DESIGN CHOICE (log 3), safe. -/
opaque Config.patReset : Nat → Grid

end Sys2Proof
end

