-- ==== Sys2Proof/Syntax.lean ====
section
/-! DEFINITION. The block's vocabulary (00_scope.md R12, 40_mode_selector_mux.md, 60_exceptions.md R400) and its instructions,
one constructor for each row of spec/opcode_table.json, and two for the instructions that codes 64 and 65 stand for under
`OVERLAP_POLICY = HILITE_FIRST` (30_encoding.md R80). -/

namespace Sys2Proof

/-- Operand class k (00_scope.md R12, 10_state.md R31). -/
inductive OperandClass where
  | white | black | other
  deriving DecidableEq, Repr

/-- Boolean family fam (00_scope.md R12). -/
inductive Family where
  | copy | or | xor | bic
  deriving DecidableEq, Repr

/-- What a boolean mode combines with the destination: the source operand (category BOOL_SRC) or the pattern bit (BOOL_PAT)
(30_encoding.md R75). -/
inductive BoolOperand where
  | source | pattern
  deriving DecidableEq, Repr

/-- Modifier mod (00_scope.md R12). -/
inductive Modifier where
  | none | dither | hilite
  deriving DecidableEq, Repr

/-- Arithmetic operation aop, in the order of 30_encoding.md R76. -/
inductive ArithOp where
  | blend | addPin | addOver | subPin | transparent | addMax | subOver | addMin
  deriving DecidableEq, Repr

/-- Category cat (00_scope.md R12, 30_encoding.md R83). -/
inductive Category where
  | boolSrc | boolPat | arith | text
  deriving DecidableEq, Repr

/-- A decoded transfer mode: the tuple (cat, inv, fam, aop, mod) of `DecodeMode`, holding the fields that are read for its
category (30_encoding.md R81). -/
inductive Mode where
  | bool (operand : BoolOperand) (inv : Bool) (fam : Family) (mod : Modifier)
  | arith (aop : ArithOp)
  | text
  deriving DecidableEq, Repr

/-- The category that the decode exposes (30_encoding.md R83). -/
def Mode.category : Mode → Category
  | .bool .source _ _ _ => .boolSrc
  | .bool .pattern _ _ _ => .boolPat
  | .arith _ => .arith
  | .text => .text

/-- The modifier that the decode exposes (30_encoding.md R83). -/
def Mode.modifier : Mode → Modifier
  | .bool _ _ _ mod => mod
  | .arith _ => .none
  | .text => .none

/-- The error kinds (60_exceptions.md R400). -/
inductive ErrorKind where
  | unsupportedMode | undefinedOperation | invalidWeight | invalidOperand | invalidPreset | illegalCommand
  deriving DecidableEq, Repr

/-- The instructions. The operands of every one arrive on the request ports (10_state.md R27); none is carried in the word. -/
inductive Instr where
  /-- `COMPOSITE SRC_COPY`, code 0 (R130). -/
  | srcCopy
  /-- `COMPOSITE SRC_OR`, code 1 (R131). -/
  | srcOr
  /-- `COMPOSITE SRC_XOR`, code 2 (R132). -/
  | srcXor
  /-- `COMPOSITE SRC_BIC`, code 3 (R133). -/
  | srcBic
  /-- `COMPOSITE NOT_SRC_COPY`, code 4 (R134). -/
  | notSrcCopy
  /-- `COMPOSITE NOT_SRC_OR`, code 5 (R135). -/
  | notSrcOr
  /-- `COMPOSITE NOT_SRC_XOR`, code 6 (R136). -/
  | notSrcXor
  /-- `COMPOSITE NOT_SRC_BIC`, code 7 (R137). -/
  | notSrcBic
  /-- `COMPOSITE PAT_COPY`, code 8 (R138). -/
  | patCopy
  /-- `COMPOSITE PAT_OR`, code 9 (R139). -/
  | patOr
  /-- `COMPOSITE PAT_XOR`, code 10 (R140). -/
  | patXor
  /-- `COMPOSITE PAT_BIC`, code 11 (R141). -/
  | patBic
  /-- `COMPOSITE NOT_PAT_COPY`, code 12 (R142). -/
  | notPatCopy
  /-- `COMPOSITE NOT_PAT_OR`, code 13 (R143). -/
  | notPatOr
  /-- `COMPOSITE NOT_PAT_XOR`, code 14 (R144). -/
  | notPatXor
  /-- `COMPOSITE NOT_PAT_BIC`, code 15 (R145). -/
  | notPatBic
  /-- `COMPOSITE BLEND`, code 32 (R210). -/
  | blend
  /-- `COMPOSITE ADD_PIN`, code 33 (R211). -/
  | addPin
  /-- `COMPOSITE ADD_OVER`, code 34 (R212). -/
  | addOver
  /-- `COMPOSITE SUB_PIN`, code 35 (R213). -/
  | subPin
  /-- `COMPOSITE TRANSPARENT`, code 36 (R214). -/
  | transparent
  /-- `COMPOSITE ADD_MAX`, code 37 (R215). -/
  | addMax
  /-- `COMPOSITE SUB_OVER`, code 38 (R216). -/
  | subOver
  /-- `COMPOSITE ADD_MIN`, code 39 (R217). -/
  | addMin
  /-- `COMPOSITE GRAYISH_TEXT`, code 49 (R236). -/
  | grayishText
  /-- `COMPOSITE HILITE_SRC_COPY`, code 50 (R240). -/
  | hiliteSrcCopy
  /-- `COMPOSITE HILITE_SRC_OR`, code 51 (R241). -/
  | hiliteSrcOr
  /-- `COMPOSITE HILITE_SRC_XOR`, code 52 (R242). -/
  | hiliteSrcXor
  /-- `COMPOSITE HILITE_SRC_BIC`, code 53 (R243). -/
  | hiliteSrcBic
  /-- `COMPOSITE HILITE_NOT_SRC_COPY`, code 54 (R244). -/
  | hiliteNotSrcCopy
  /-- `COMPOSITE HILITE_NOT_SRC_OR`, code 55 (R245). -/
  | hiliteNotSrcOr
  /-- `COMPOSITE HILITE_NOT_SRC_XOR`, code 56 (R246). -/
  | hiliteNotSrcXor
  /-- `COMPOSITE HILITE_NOT_SRC_BIC`, code 57 (R247). -/
  | hiliteNotSrcBic
  /-- `COMPOSITE HILITE_PAT_COPY`, code 58 (R248). -/
  | hilitePatCopy
  /-- `COMPOSITE HILITE_PAT_OR`, code 59 (R249). -/
  | hilitePatOr
  /-- `COMPOSITE HILITE_PAT_XOR`, code 60 (R250). -/
  | hilitePatXor
  /-- `COMPOSITE HILITE_PAT_BIC`, code 61 (R251). -/
  | hilitePatBic
  /-- `COMPOSITE HILITE_NOT_PAT_COPY`, code 62 (R252). -/
  | hiliteNotPatCopy
  /-- `COMPOSITE HILITE_NOT_PAT_OR`, code 63 (R253). -/
  | hiliteNotPatOr
  /-- `COMPOSITE HILITE_NOT_PAT_XOR`, code 64, under HILITE_FIRST (R254). -/
  | hiliteNotPatXor
  /-- `COMPOSITE HILITE_NOT_PAT_BIC`, code 65, under HILITE_FIRST (R255). -/
  | hiliteNotPatBic
  /-- `COMPOSITE DITHER_SRC_COPY`, code 64, under DITHER_FIRST (R260). -/
  | ditherSrcCopy
  /-- `COMPOSITE DITHER_SRC_OR`, code 65, under DITHER_FIRST (R261). -/
  | ditherSrcOr
  /-- `COMPOSITE DITHER_SRC_XOR`, code 66 (R262). -/
  | ditherSrcXor
  /-- `COMPOSITE DITHER_SRC_BIC`, code 67 (R263). -/
  | ditherSrcBic
  /-- `COMPOSITE DITHER_NOT_SRC_COPY`, code 68 (R264). -/
  | ditherNotSrcCopy
  /-- `COMPOSITE DITHER_NOT_SRC_OR`, code 69 (R265). -/
  | ditherNotSrcOr
  /-- `COMPOSITE DITHER_NOT_SRC_XOR`, code 70 (R266). -/
  | ditherNotSrcXor
  /-- `COMPOSITE DITHER_NOT_SRC_BIC`, code 71 (R267). -/
  | ditherNotSrcBic
  /-- `COMPOSITE DITHER_PAT_COPY`, code 72 (R268). -/
  | ditherPatCopy
  /-- `COMPOSITE DITHER_PAT_OR`, code 73 (R269). -/
  | ditherPatOr
  /-- `COMPOSITE DITHER_PAT_XOR`, code 74 (R270). -/
  | ditherPatXor
  /-- `COMPOSITE DITHER_PAT_BIC`, code 75 (R271). -/
  | ditherPatBic
  /-- `COMPOSITE DITHER_NOT_PAT_COPY`, code 76 (R272). -/
  | ditherNotPatCopy
  /-- `COMPOSITE DITHER_NOT_PAT_OR`, code 77 (R273). -/
  | ditherNotPatOr
  /-- `COMPOSITE DITHER_NOT_PAT_XOR`, code 78 (R274). -/
  | ditherNotPatXor
  /-- `COMPOSITE DITHER_NOT_PAT_BIC`, code 79 (R275). -/
  | ditherNotPatBic
  /-- `LDPAT.SEED`, cmd 1 (44_pattern_tile_lut.md R310). -/
  | ldpatSeed
  /-- `LDPAT.SOLID`, cmd 2 (44_pattern_tile_lut.md R311). -/
  | ldpatSolid
  /-- `LDPAT.PRESET`, cmd 3 (44_pattern_tile_lut.md R312). -/
  | ldpatPreset
  /-- `SAMPLE`, cmd 4 (44_pattern_tile_lut.md R313). -/
  | sample
  deriving DecidableEq, Repr

/-- The transfer mode a COMPOSITE instruction stands for; none for the commands that name no mode (30_encoding.md R75 to R80). -/
def Instr.mode : Instr → Option Mode
  | .srcCopy => some (.bool .source false .copy .none)
  | .srcOr => some (.bool .source false .or .none)
  | .srcXor => some (.bool .source false .xor .none)
  | .srcBic => some (.bool .source false .bic .none)
  | .notSrcCopy => some (.bool .source true .copy .none)
  | .notSrcOr => some (.bool .source true .or .none)
  | .notSrcXor => some (.bool .source true .xor .none)
  | .notSrcBic => some (.bool .source true .bic .none)
  | .patCopy => some (.bool .pattern false .copy .none)
  | .patOr => some (.bool .pattern false .or .none)
  | .patXor => some (.bool .pattern false .xor .none)
  | .patBic => some (.bool .pattern false .bic .none)
  | .notPatCopy => some (.bool .pattern true .copy .none)
  | .notPatOr => some (.bool .pattern true .or .none)
  | .notPatXor => some (.bool .pattern true .xor .none)
  | .notPatBic => some (.bool .pattern true .bic .none)
  | .blend => some (.arith .blend)
  | .addPin => some (.arith .addPin)
  | .addOver => some (.arith .addOver)
  | .subPin => some (.arith .subPin)
  | .transparent => some (.arith .transparent)
  | .addMax => some (.arith .addMax)
  | .subOver => some (.arith .subOver)
  | .addMin => some (.arith .addMin)
  | .grayishText => some (.text)
  | .hiliteSrcCopy => some (.bool .source false .copy .hilite)
  | .hiliteSrcOr => some (.bool .source false .or .hilite)
  | .hiliteSrcXor => some (.bool .source false .xor .hilite)
  | .hiliteSrcBic => some (.bool .source false .bic .hilite)
  | .hiliteNotSrcCopy => some (.bool .source true .copy .hilite)
  | .hiliteNotSrcOr => some (.bool .source true .or .hilite)
  | .hiliteNotSrcXor => some (.bool .source true .xor .hilite)
  | .hiliteNotSrcBic => some (.bool .source true .bic .hilite)
  | .hilitePatCopy => some (.bool .pattern false .copy .hilite)
  | .hilitePatOr => some (.bool .pattern false .or .hilite)
  | .hilitePatXor => some (.bool .pattern false .xor .hilite)
  | .hilitePatBic => some (.bool .pattern false .bic .hilite)
  | .hiliteNotPatCopy => some (.bool .pattern true .copy .hilite)
  | .hiliteNotPatOr => some (.bool .pattern true .or .hilite)
  | .hiliteNotPatXor => some (.bool .pattern true .xor .hilite)
  | .hiliteNotPatBic => some (.bool .pattern true .bic .hilite)
  | .ditherSrcCopy => some (.bool .source false .copy .dither)
  | .ditherSrcOr => some (.bool .source false .or .dither)
  | .ditherSrcXor => some (.bool .source false .xor .dither)
  | .ditherSrcBic => some (.bool .source false .bic .dither)
  | .ditherNotSrcCopy => some (.bool .source true .copy .dither)
  | .ditherNotSrcOr => some (.bool .source true .or .dither)
  | .ditherNotSrcXor => some (.bool .source true .xor .dither)
  | .ditherNotSrcBic => some (.bool .source true .bic .dither)
  | .ditherPatCopy => some (.bool .pattern false .copy .dither)
  | .ditherPatOr => some (.bool .pattern false .or .dither)
  | .ditherPatXor => some (.bool .pattern false .xor .dither)
  | .ditherPatBic => some (.bool .pattern false .bic .dither)
  | .ditherNotPatCopy => some (.bool .pattern true .copy .dither)
  | .ditherNotPatOr => some (.bool .pattern true .or .dither)
  | .ditherNotPatXor => some (.bool .pattern true .xor .dither)
  | .ditherNotPatBic => some (.bool .pattern true .bic .dither)
  | .ldpatSeed => none
  | .ldpatSolid => none
  | .ldpatPreset => none
  | .sample => none

/-- The mnemonic of the spec's own syntax (30_encoding.md R71, R86). -/
def Instr.mnemonic : Instr → String
  | .srcCopy => "COMPOSITE SRC_COPY"
  | .srcOr => "COMPOSITE SRC_OR"
  | .srcXor => "COMPOSITE SRC_XOR"
  | .srcBic => "COMPOSITE SRC_BIC"
  | .notSrcCopy => "COMPOSITE NOT_SRC_COPY"
  | .notSrcOr => "COMPOSITE NOT_SRC_OR"
  | .notSrcXor => "COMPOSITE NOT_SRC_XOR"
  | .notSrcBic => "COMPOSITE NOT_SRC_BIC"
  | .patCopy => "COMPOSITE PAT_COPY"
  | .patOr => "COMPOSITE PAT_OR"
  | .patXor => "COMPOSITE PAT_XOR"
  | .patBic => "COMPOSITE PAT_BIC"
  | .notPatCopy => "COMPOSITE NOT_PAT_COPY"
  | .notPatOr => "COMPOSITE NOT_PAT_OR"
  | .notPatXor => "COMPOSITE NOT_PAT_XOR"
  | .notPatBic => "COMPOSITE NOT_PAT_BIC"
  | .blend => "COMPOSITE BLEND"
  | .addPin => "COMPOSITE ADD_PIN"
  | .addOver => "COMPOSITE ADD_OVER"
  | .subPin => "COMPOSITE SUB_PIN"
  | .transparent => "COMPOSITE TRANSPARENT"
  | .addMax => "COMPOSITE ADD_MAX"
  | .subOver => "COMPOSITE SUB_OVER"
  | .addMin => "COMPOSITE ADD_MIN"
  | .grayishText => "COMPOSITE GRAYISH_TEXT"
  | .hiliteSrcCopy => "COMPOSITE HILITE_SRC_COPY"
  | .hiliteSrcOr => "COMPOSITE HILITE_SRC_OR"
  | .hiliteSrcXor => "COMPOSITE HILITE_SRC_XOR"
  | .hiliteSrcBic => "COMPOSITE HILITE_SRC_BIC"
  | .hiliteNotSrcCopy => "COMPOSITE HILITE_NOT_SRC_COPY"
  | .hiliteNotSrcOr => "COMPOSITE HILITE_NOT_SRC_OR"
  | .hiliteNotSrcXor => "COMPOSITE HILITE_NOT_SRC_XOR"
  | .hiliteNotSrcBic => "COMPOSITE HILITE_NOT_SRC_BIC"
  | .hilitePatCopy => "COMPOSITE HILITE_PAT_COPY"
  | .hilitePatOr => "COMPOSITE HILITE_PAT_OR"
  | .hilitePatXor => "COMPOSITE HILITE_PAT_XOR"
  | .hilitePatBic => "COMPOSITE HILITE_PAT_BIC"
  | .hiliteNotPatCopy => "COMPOSITE HILITE_NOT_PAT_COPY"
  | .hiliteNotPatOr => "COMPOSITE HILITE_NOT_PAT_OR"
  | .hiliteNotPatXor => "COMPOSITE HILITE_NOT_PAT_XOR"
  | .hiliteNotPatBic => "COMPOSITE HILITE_NOT_PAT_BIC"
  | .ditherSrcCopy => "COMPOSITE DITHER_SRC_COPY"
  | .ditherSrcOr => "COMPOSITE DITHER_SRC_OR"
  | .ditherSrcXor => "COMPOSITE DITHER_SRC_XOR"
  | .ditherSrcBic => "COMPOSITE DITHER_SRC_BIC"
  | .ditherNotSrcCopy => "COMPOSITE DITHER_NOT_SRC_COPY"
  | .ditherNotSrcOr => "COMPOSITE DITHER_NOT_SRC_OR"
  | .ditherNotSrcXor => "COMPOSITE DITHER_NOT_SRC_XOR"
  | .ditherNotSrcBic => "COMPOSITE DITHER_NOT_SRC_BIC"
  | .ditherPatCopy => "COMPOSITE DITHER_PAT_COPY"
  | .ditherPatOr => "COMPOSITE DITHER_PAT_OR"
  | .ditherPatXor => "COMPOSITE DITHER_PAT_XOR"
  | .ditherPatBic => "COMPOSITE DITHER_PAT_BIC"
  | .ditherNotPatCopy => "COMPOSITE DITHER_NOT_PAT_COPY"
  | .ditherNotPatOr => "COMPOSITE DITHER_NOT_PAT_OR"
  | .ditherNotPatXor => "COMPOSITE DITHER_NOT_PAT_XOR"
  | .ditherNotPatBic => "COMPOSITE DITHER_NOT_PAT_BIC"
  | .ldpatSeed => "LDPAT.SEED"
  | .ldpatSolid => "LDPAT.SOLID"
  | .ldpatPreset => "LDPAT.PRESET"
  | .sample => "SAMPLE"

/-- One line of the spec's assembler syntax, less its text and its port list (30_encoding.md R86). -/
inductive AsmLine where
  /-- `COMPOSITE <mnemonic>`, or `SAMPLE`. -/
  | plain (i : Instr)
  /-- `COMPOSITE #<code>`. -/
  | compositeCode (code : BitVec 16)
  /-- `LDPAT.SEED #<imm32>`. -/
  | ldpatSeed (imm : Word)
  /-- `LDPAT.SOLID #<0|1>`. -/
  | ldpatSolid (b : Bit)
  /-- `LDPAT.PRESET #<index>`. -/
  | ldpatPreset (index : Word)
  deriving DecidableEq, Repr

/-- The pseudo-instructions (30_encoding.md R87). -/
inductive Pseudo where
  | ldpatWhite | ldpatBlack | ldpatGray | ldpatLtgray | ldpatDkgray | ditherCopy | hilite
  deriving DecidableEq, Repr

/-- The expansion of each pseudo-instruction (30_encoding.md R87). -/
def Pseudo.expand : Pseudo → AsmLine
  | .ldpatWhite => .ldpatPreset 0
  | .ldpatBlack => .ldpatPreset 1
  | .ldpatGray => .ldpatPreset 2
  | .ldpatLtgray => .ldpatPreset 3
  | .ldpatDkgray => .ldpatPreset 4
  | .ditherCopy => .compositeCode 64
  | .hilite => .compositeCode 50

end Sys2Proof
end

