-- ==== Sys2Proof/WellFormed.lean ====
section
/-! DEFINITION. Which instructions have a word, under each `OVERLAP_POLICY` (30_encoding.md R80). -/

namespace Sys2Proof

/-- R80: under each policy two or four of the instructions of codes 64 and 65 have no code; every other instruction has one
under every policy. -/
def Instr.wellFormed (p : OverlapPolicy) : Instr → Bool
  | .ditherSrcCopy | .ditherSrcOr => p == .ditherFirst
  | .hiliteNotPatXor | .hiliteNotPatBic => p == .hiliteFirst
  | .srcCopy => true
  | .srcOr => true
  | .srcXor => true
  | .srcBic => true
  | .notSrcCopy => true
  | .notSrcOr => true
  | .notSrcXor => true
  | .notSrcBic => true
  | .patCopy => true
  | .patOr => true
  | .patXor => true
  | .patBic => true
  | .notPatCopy => true
  | .notPatOr => true
  | .notPatXor => true
  | .notPatBic => true
  | .blend => true
  | .addPin => true
  | .addOver => true
  | .subPin => true
  | .transparent => true
  | .addMax => true
  | .subOver => true
  | .addMin => true
  | .grayishText => true
  | .hiliteSrcCopy => true
  | .hiliteSrcOr => true
  | .hiliteSrcXor => true
  | .hiliteSrcBic => true
  | .hiliteNotSrcCopy => true
  | .hiliteNotSrcOr => true
  | .hiliteNotSrcXor => true
  | .hiliteNotSrcBic => true
  | .hilitePatCopy => true
  | .hilitePatOr => true
  | .hilitePatXor => true
  | .hilitePatBic => true
  | .hiliteNotPatCopy => true
  | .hiliteNotPatOr => true
  | .ditherSrcXor => true
  | .ditherSrcBic => true
  | .ditherNotSrcCopy => true
  | .ditherNotSrcOr => true
  | .ditherNotSrcXor => true
  | .ditherNotSrcBic => true
  | .ditherPatCopy => true
  | .ditherPatOr => true
  | .ditherPatXor => true
  | .ditherPatBic => true
  | .ditherNotPatCopy => true
  | .ditherNotPatOr => true
  | .ditherNotPatXor => true
  | .ditherNotPatBic => true
  | .ldpatSeed => true
  | .ldpatSolid => true
  | .ldpatPreset => true
  | .sample => true

/-- A line of assembler is well formed when its operand is one the syntax allows: a preset index has no check before the
block's own (44_pattern_tile_lut.md R312), and a mnemonic must be one that takes no immediate and has a word (30_encoding.md R86). -/
def AsmLine.wellFormed (p : OverlapPolicy) : AsmLine → Bool
  | .plain .ldpatSeed | .plain .ldpatSolid | .plain .ldpatPreset => false
  | .plain i => i.wellFormed p
  | .compositeCode _ => true
  | .ldpatSeed _ => true
  | .ldpatSolid _ => true
  | .ldpatPreset _ => true

end Sys2Proof
end

