-- ==== Sys2Proof/Decode.lean ====
section
/-! DEFINITION. The command word (30_encoding.md R70 to R72), `DecodeMode` (R81), the decoder, total on every 32-bit word and
rejecting by the name of the error the word raises (R82, R84), and after it the encoder, written row by row from the words the
rules give. -/

namespace Sys2Proof

/-- `cw[31:29]`, the command (30_encoding.md R70). -/
def cmdField (cw : Word) : BitVec 3 := cw.extractLsb' 29 3

/-- `cw[28:16]`, reserved (30_encoding.md R70). -/
def rsvField (cw : Word) : BitVec 13 := cw.extractLsb' 16 13

/-- `cw[15:0]`, the mode code (30_encoding.md R70). -/
def modeField (cw : Word) : BitVec 16 := cw.extractLsb' 0 16

/-- `FAM` of 30_encoding.md R81, indexed by `b[1:0]`. -/
def familyOf (f : BitVec 2) : Family :=
  match f.toFin with
  | 0 => .copy
  | 1 => .or
  | 2 => .xor
  | 3 => .bic

/-- `AOP` of 30_encoding.md R81, indexed by `m - 32`. -/
def arithOpOf (a : BitVec 3) : ArithOp :=
  match a.toFin with
  | 0 => .blend
  | 1 => .addPin
  | 2 => .addOver
  | 3 => .subPin
  | 4 => .transparent
  | 5 => .addMax
  | 6 => .subOver
  | 7 => .addMin

/-- `Base(b, md)` of 30_encoding.md R81: `b[3]` selects the operand, `b[2]` the inversion, `b[1:0]` the family (R75). -/
def baseMode (b : BitVec 4) (mod : Modifier) : Mode :=
  .bool (if b.getLsbD 3 then .pattern else .source) (b.getLsbD 2) (familyOf (b.extractLsb' 0 2)) mod

/-- `DecodeMode` (30_encoding.md R81), total on every code; `none` is INVALID. -/
def decodeMode (p : OverlapPolicy) (m : Nat) : Option Mode :=
  if m ≤ 15 then some (baseMode (BitVec.ofNat 4 m) .none)
  else if 32 ≤ m ∧ m ≤ 39 then some (.arith (arithOpOf (BitVec.ofNat 3 (m - 32))))
  else if m = 49 then some .text
  else if m = 64 ∨ m = 65 then
    match p with
    | .ditherFirst => some (baseMode (BitVec.ofNat 4 (m - 64)) .dither)
    | .hiliteFirst => some (baseMode (BitVec.ofNat 4 (m - 50)) .hilite)
    | .reject => none
  else if 50 ≤ m ∧ m ≤ 63 then some (baseMode (BitVec.ofNat 4 (m - 50)) .hilite)
  else if 66 ≤ m ∧ m ≤ 79 then some (baseMode (BitVec.ofNat 4 (m - 64)) .dither)
  else none

/-- The instruction that stands for a COMPOSITE of a decoded mode (30_encoding.md R75 to R79). -/
def instrOfMode : Mode → Instr
  | .bool .source false .copy .none => .srcCopy
  | .bool .source false .or .none => .srcOr
  | .bool .source false .xor .none => .srcXor
  | .bool .source false .bic .none => .srcBic
  | .bool .source true .copy .none => .notSrcCopy
  | .bool .source true .or .none => .notSrcOr
  | .bool .source true .xor .none => .notSrcXor
  | .bool .source true .bic .none => .notSrcBic
  | .bool .pattern false .copy .none => .patCopy
  | .bool .pattern false .or .none => .patOr
  | .bool .pattern false .xor .none => .patXor
  | .bool .pattern false .bic .none => .patBic
  | .bool .pattern true .copy .none => .notPatCopy
  | .bool .pattern true .or .none => .notPatOr
  | .bool .pattern true .xor .none => .notPatXor
  | .bool .pattern true .bic .none => .notPatBic
  | .arith .blend => .blend
  | .arith .addPin => .addPin
  | .arith .addOver => .addOver
  | .arith .subPin => .subPin
  | .arith .transparent => .transparent
  | .arith .addMax => .addMax
  | .arith .subOver => .subOver
  | .arith .addMin => .addMin
  | .text => .grayishText
  | .bool .source false .copy .hilite => .hiliteSrcCopy
  | .bool .source false .or .hilite => .hiliteSrcOr
  | .bool .source false .xor .hilite => .hiliteSrcXor
  | .bool .source false .bic .hilite => .hiliteSrcBic
  | .bool .source true .copy .hilite => .hiliteNotSrcCopy
  | .bool .source true .or .hilite => .hiliteNotSrcOr
  | .bool .source true .xor .hilite => .hiliteNotSrcXor
  | .bool .source true .bic .hilite => .hiliteNotSrcBic
  | .bool .pattern false .copy .hilite => .hilitePatCopy
  | .bool .pattern false .or .hilite => .hilitePatOr
  | .bool .pattern false .xor .hilite => .hilitePatXor
  | .bool .pattern false .bic .hilite => .hilitePatBic
  | .bool .pattern true .copy .hilite => .hiliteNotPatCopy
  | .bool .pattern true .or .hilite => .hiliteNotPatOr
  | .bool .pattern true .xor .hilite => .hiliteNotPatXor
  | .bool .pattern true .bic .hilite => .hiliteNotPatBic
  | .bool .source false .copy .dither => .ditherSrcCopy
  | .bool .source false .or .dither => .ditherSrcOr
  | .bool .source false .xor .dither => .ditherSrcXor
  | .bool .source false .bic .dither => .ditherSrcBic
  | .bool .source true .copy .dither => .ditherNotSrcCopy
  | .bool .source true .or .dither => .ditherNotSrcOr
  | .bool .source true .xor .dither => .ditherNotSrcXor
  | .bool .source true .bic .dither => .ditherNotSrcBic
  | .bool .pattern false .copy .dither => .ditherPatCopy
  | .bool .pattern false .or .dither => .ditherPatOr
  | .bool .pattern false .xor .dither => .ditherPatXor
  | .bool .pattern false .bic .dither => .ditherPatBic
  | .bool .pattern true .copy .dither => .ditherNotPatCopy
  | .bool .pattern true .or .dither => .ditherNotPatOr
  | .bool .pattern true .xor .dither => .ditherNotPatXor
  | .bool .pattern true .bic .dither => .ditherNotPatBic

/-- The decoder (30_encoding.md R71, R72, R81, R84): a non-zero reserved field or a reserved command is `IllegalCommand`,
whatever else the word holds; an INVALID mode code of a COMPOSITE is `UnsupportedMode`; commands 1 to 4 ignore the mode field. -/
def decode (p : OverlapPolicy) (cw : Word) : Except ErrorKind Instr :=
  if rsvField cw ≠ 0 then .error .illegalCommand
  else
    match (cmdField cw).toFin with
    | 0 =>
      match decodeMode p (modeField cw).toNat with
      | some md => .ok (instrOfMode md)
      | none => .error .unsupportedMode
    | 1 => .ok .ldpatSeed
    | 2 => .ok .ldpatSolid
    | 3 => .ok .ldpatPreset
    | 4 => .ok .sample
    | 5 => .error .illegalCommand
    | 6 => .error .illegalCommand
    | 7 => .error .illegalCommand

/-- The word of each instruction, as its rule writes it (the rule's `cw`); a command that ignores `cw[15:0]` is encoded with
zeros there (30_encoding.md R86). Of the four instructions of codes 64 and 65 each has its word only under the policy that
gives it one (R80, `Instr.wellFormed`). -/
def encode : Instr → Word
  | .srcCopy => 0x00000000
  | .srcOr => 0x00000001
  | .srcXor => 0x00000002
  | .srcBic => 0x00000003
  | .notSrcCopy => 0x00000004
  | .notSrcOr => 0x00000005
  | .notSrcXor => 0x00000006
  | .notSrcBic => 0x00000007
  | .patCopy => 0x00000008
  | .patOr => 0x00000009
  | .patXor => 0x0000000A
  | .patBic => 0x0000000B
  | .notPatCopy => 0x0000000C
  | .notPatOr => 0x0000000D
  | .notPatXor => 0x0000000E
  | .notPatBic => 0x0000000F
  | .blend => 0x00000020
  | .addPin => 0x00000021
  | .addOver => 0x00000022
  | .subPin => 0x00000023
  | .transparent => 0x00000024
  | .addMax => 0x00000025
  | .subOver => 0x00000026
  | .addMin => 0x00000027
  | .grayishText => 0x00000031
  | .hiliteSrcCopy => 0x00000032
  | .hiliteSrcOr => 0x00000033
  | .hiliteSrcXor => 0x00000034
  | .hiliteSrcBic => 0x00000035
  | .hiliteNotSrcCopy => 0x00000036
  | .hiliteNotSrcOr => 0x00000037
  | .hiliteNotSrcXor => 0x00000038
  | .hiliteNotSrcBic => 0x00000039
  | .hilitePatCopy => 0x0000003A
  | .hilitePatOr => 0x0000003B
  | .hilitePatXor => 0x0000003C
  | .hilitePatBic => 0x0000003D
  | .hiliteNotPatCopy => 0x0000003E
  | .hiliteNotPatOr => 0x0000003F
  | .hiliteNotPatXor => 0x00000040
  | .hiliteNotPatBic => 0x00000041
  | .ditherSrcCopy => 0x00000040
  | .ditherSrcOr => 0x00000041
  | .ditherSrcXor => 0x00000042
  | .ditherSrcBic => 0x00000043
  | .ditherNotSrcCopy => 0x00000044
  | .ditherNotSrcOr => 0x00000045
  | .ditherNotSrcXor => 0x00000046
  | .ditherNotSrcBic => 0x00000047
  | .ditherPatCopy => 0x00000048
  | .ditherPatOr => 0x00000049
  | .ditherPatXor => 0x0000004A
  | .ditherPatBic => 0x0000004B
  | .ditherNotPatCopy => 0x0000004C
  | .ditherNotPatOr => 0x0000004D
  | .ditherNotPatXor => 0x0000004E
  | .ditherNotPatBic => 0x0000004F
  | .ldpatSeed => 0x20000000
  | .ldpatSolid => 0x40000000
  | .ldpatPreset => 0x60000000
  | .sample => 0x80000000

/-- What the host presents on `cw` and `arg` for one line of assembler (30_encoding.md R86: `cw` is cmd, thirteen zeros, mode);
`none` where the line gives `arg` no value. -/
def AsmLine.assemble : AsmLine → Word × Option Word
  | .plain i => (encode i, none)
  | .compositeCode code => (code.setWidth 32, none)
  | .ldpatSeed imm => (encode .ldpatSeed, some imm)
  | .ldpatSolid b => (encode .ldpatSolid, some (b.setWidth 32))
  | .ldpatPreset index => (encode .ldpatPreset, some index)

/-- HOST INTERFACE. The instruction the decoder reads from the word `w` of `nbits` bits, under the default policy of
00_scope.md R8, which is `State.reset`'s (DESIGN CHOICE, log 4). Every instruction is one 32-bit word (30_encoding.md R85). -/
def decodeTableWord (nbits w : Nat) : Option Instr :=
  match decode Params.default.overlap (BitVec.ofNat 32 (w % 2 ^ nbits)) with
  | .ok i => some i
  | .error _ => none

end Sys2Proof
end

