-- ==== Sys2Proof/Machine/State.lean ====
section
/-! DEFINITION. The machine's state as plain data: the one register, the ports, the host's events still to come, and the open
parameters; and the state after reset. INVENTORY.md lists every field. -/

namespace Sys2Proof.Machine

/-- The request ports, presented together with each command (10_state.md R27). -/
structure Ports where
  /-- Command word. -/
  cw : Word
  /-- Source pixel. -/
  srcPix : Pixel
  /-- Class of the source operand (10_state.md R31). -/
  srcClass : BitVec 2
  /-- Coverage of an OTHER source operand (10_state.md R31). -/
  srcCov : BitVec 16
  /-- Current destination pixel. -/
  dstPix : Pixel
  /-- Foreground colour. -/
  fg : Pixel
  /-- Background colour. -/
  bg : Pixel
  /-- 1 when the destination is 1 bit deep. -/
  dst1bit : Bit
  /-- Blend weight, two's complement. -/
  weight : Word
  /-- Destination x coordinate. -/
  x : Word
  /-- Destination y coordinate. -/
  y : Word
  /-- Argument of a pattern load. -/
  arg : Word
  deriving DecidableEq, Repr

/-- Every port at zero. -/
def Ports.zero : Ports where
  cw := 0
  srcPix := 0
  srcClass := 0
  srcCov := 0
  dstPix := 0
  fg := 0
  bg := 0
  dst1bit := 0
  weight := 0
  x := 0
  y := 0
  arg := 0

/-- The response ports (10_state.md R28). -/
structure Response where
  /-- The new destination pixel of a COMPOSITE. -/
  pix : Pixel
  /-- The pattern bit of a SAMPLE. -/
  bit : Bit
  /-- The outcome (60_exceptions.md R401). -/
  status : BitVec 3
  deriving DecidableEq, Repr

/-- What the host does next: present a command with its ports (20_memory.md R56), or reset the block between two commands
(70_reset_and_hazards.md R501). -/
inductive HostEvent where
  | command (q : Ports)
  | reset
  deriving DecidableEq, Repr

/-- The machine's state. `pat` is the block's one register (10_state.md R20); `ports` and `rsp` are its interface; `script`,
`draws` and `cfg` are the model's own (DESIGN CHOICE: log 1, log 3, log 4, log 5). -/
structure State where
  /-- The pattern register `PAT[63:0]` (10_state.md R24). -/
  pat : Grid
  /-- The request ports of the current command (10_state.md R27). -/
  ports : Ports
  /-- The response of the command just run; `none` before the first command and between commands, when the ports have no
  defined value and must not be read (70_reset_and_hazards.md R502). -/
  rsp : Option Response
  /-- The host's events still to come, oldest first. -/
  script : List HostEvent
  /-- How many values of `PAT_RESET` have been drawn. -/
  draws : Nat
  /-- The open parameters of 00_scope.md R8. No step writes them. -/
  cfg : Params
  deriving DecidableEq, Repr

/-- The faults: none. An error of the block is a status in the response of its command, it does not stop the block
(60_exceptions.md R402, R406), and no behaviour of the block is treated as stuck (93_implementation_defined.md part 1). So the
type has no constructor, and nobody raises one: safe, as there is no state in which the spec stops the block. -/
inductive Fault where
  deriving DecidableEq, Repr

/-- The refusals. -/
inductive Refusal where
  /-- Raised by an arm of `exec` whose instruction has no meaning yet, with its mnemonic; safe. No arm raises it. -/
  | notModelled (mnemonic : String)
  deriving DecidableEq, Repr

/-- The block after reset number `n`, with parameters `c`: `PAT` is the n-th draw of `PAT_RESET` (70_reset_and_hazards.md R500),
no response is driven (R502), and the host has announced nothing. The request ports are at zero (DESIGN CHOICE, log 9). -/
def State.afterReset (c : Params) (n : Nat) : State where
  pat := Config.patReset n
  ports := .zero
  rsp := none
  script := []
  draws := n + 1
  cfg := c

/-- The machine right after reset: the first draw of `PAT_RESET` and the default parameters (00_scope.md R8). -/
def State.reset : State := State.afterReset Params.default 0

end Sys2Proof.Machine
end

