-- ==== Sys2Proof/Machine/Flags.lean ====
section
/-! DEFINITION. The block has no flags, condition codes or predicates (10_state.md R22), so there is no flag computation. What
stands here is the one report of an outcome it has, the status codes of `rsp.status` (60_exceptions.md R400, R401). -/

namespace Sys2Proof.Machine

/-- Status 0, `OK` (60_exceptions.md R400). -/
def statusOk : BitVec 3 := 0

/-- The status code of each error kind (60_exceptions.md R400, R401); 7 is the code of none. -/
def errorCode : ErrorKind → BitVec 3
  | .unsupportedMode => 1
  | .undefinedOperation => 2
  | .invalidWeight => 3
  | .invalidOperand => 4
  | .invalidPreset => 5
  | .illegalCommand => 6

end Sys2Proof.Machine
end

