-- ==== Sys2Proof/Machine/Ops.lean ====
section
/-! DEFINITION. The named operations over the state: pixels and their channels, the pattern register, the response ports,
ending a command with an error, presenting a command, idling and reset. There is no memory (20_memory.md R50) and no trap, so
there is nothing to return from (60_exceptions.md R406). -/

namespace Sys2Proof.Machine

/-! ### Pixels -/

/-- `R(p)` (00_scope.md R11, 10_state.md R29). -/
def redOf (p : Pixel) : Chan := p.extractLsb' 32 16

/-- `G(p)` (00_scope.md R11, 10_state.md R29). -/
def greenOf (p : Pixel) : Chan := p.extractLsb' 16 16

/-- `B(p)` (00_scope.md R11, 10_state.md R29). -/
def blueOf (p : Pixel) : Chan := p.extractLsb' 0 16

/-- `RGB(r, g, b)` (00_scope.md R11). -/
def rgb (r g b : Chan) : Pixel := (r ++ g) ++ b

/-- `LANES(f, S, D)` (42_arithmetic_blend_unit.md R201): each channel on its own, as exact integers (R200). Every `f` it is
given keeps its result in 0..65535, so that the narrowing to a channel drops nothing. -/
def lanes (f : Nat → Nat → Nat) (s d : Pixel) : Pixel :=
  rgb (BitVec.ofNat 16 (f (redOf s).toNat (redOf d).toNat))
    (BitVec.ofNat 16 (f (greenOf s).toNat (greenOf d).toNat))
    (BitVec.ofNat 16 (f (blueOf s).toNat (blueOf d).toNat))

/-- The low bit of a port, the whole of a 1-bit pixel (10_state.md R30). -/
def bitOf (p : Pixel) : Bit := p.extractLsb' 0 1

/-- `zext_48` of a bit (10_state.md R30). -/
def zextBit (b : Bit) : Pixel := b.setWidth 48

/-- A pixel in the destination's format: on a 1-bit destination bit 0 alone, zero-extended, and on a colour destination all 48
bits (40_mode_selector_mux.md R104). Operands are read and results are driven through it. A 1-bit value is carried as its
zero-extension, and `bitOf` takes it back (DESIGN CHOICE of representation, log 8, safe). -/
def inFormat (one : Bool) (p : Pixel) : Pixel :=
  if one then zextBit (bitOf p) else p

/-- The monochrome palette: index 0 is white, index 1 is black (10_state.md R32). No command reads it. -/
def monochromePalette (index : Bit) : Pixel :=
  if index = 1 then rgb 0 0 0 else rgb 0xFFFF 0xFFFF 0xFFFF

/-! ### The pattern register and the pattern constants -/

/-- The number `8*row + column` of a cell (44_pattern_tile_lut.md R301), from the column `xi = x[2:0]` and the row
`yi = y[2:0]`. -/
def cellIndex (xi yi : BitVec 3) : Fin 64 :=
  ⟨8 * yi.toNat + xi.toNat, by have := xi.isLt; have := yi.isLt; omega⟩

/-- Cell (row yi, column xi) of a pattern: bit `63 - (8*yi + xi)` (10_state.md R24, 44_pattern_tile_lut.md R301). -/
def cellOf (g : Grid) (xi yi : BitVec 3) : Bit :=
  g.extractLsb' (63 - (cellIndex xi yi).val) 1

/-- `PatSample` at the presented coordinates (44_pattern_tile_lut.md R302): only `x[2:0]` and `y[2:0]` are read. -/
def patSample (g : Grid) (x y : Word) : Bit :=
  cellOf g (x.extractLsb' 0 3) (y.extractLsb' 0 3)

/-- `SeedPat(seed)` (44_pattern_tile_lut.md R304). -/
def seedPat (seed : Word) : Grid := seed ++ seed

/-- `SolidPat(b)` (44_pattern_tile_lut.md R306). -/
def solidPat (b : Bit) : Grid :=
  if b = 1 then 0xFFFFFFFFFFFFFFFF else 0x0000000000000000

/-- The predefined patterns in the order of 44_pattern_tile_lut.md R305; no other index has one. -/
def presetPat (index : Word) : Option Grid :=
  match index.toNat with
  | 0 => some (solidPat 0)
  | 1 => some (solidPat 1)
  | 2 => some (seedPat 0xAA55AA55)
  | 3 => some (seedPat 0x88228822)
  | 4 => some (seedPat 0x77DD77DD)
  | _ => none

/-- A load: `PAT` is written whole (10_state.md R25). -/
def writePat (g : Grid) (s : State) : State := { s with pat := g }

/-! ### The response ports -/

/-- Ends a command with status OK, driving `rsp.pix` and `rsp.bit` (10_state.md R28). -/
def driveOk (pix : Pixel) (bit : Bit) (s : State) : State :=
  { s with rsp := some { pix := pix, bit := bit, status := statusOk } }

/-- `raise E`, the block's only exception (60_exceptions.md R402): the status is the error's code, `rsp.pix` is `dst_pix` as
presented, `rsp.bit` is 0, and no state is written. Nothing is saved and control goes nowhere (R406). -/
def raise (e : ErrorKind) (s : State) : State :=
  { s with rsp := some { pix := s.ports.dstPix, bit := 0, status := errorCode e } }

/-! ### The host's events -/

/-- The host presents a command: the request ports take its values (20_memory.md R54), and no response is driven yet
(70_reset_and_hazards.md R502). -/
def present (q : Ports) (rest : List HostEvent) (s : State) : State :=
  { s with ports := q, script := rest, rsp := none }

/-- Reset, taken between commands: `PAT` takes the next draw of `PAT_RESET` and nothing else of the block changes, as it has no
other state (70_reset_and_hazards.md R500, R501). No response is driven (R502). -/
def takeReset (rest : List HostEvent) (s : State) : State :=
  { s with pat := Config.patReset s.draws, draws := s.draws + 1, script := rest, rsp := none }

/-- No command is presented: the block is idle and holds `PAT` (60_exceptions.md R413); no response is driven
(70_reset_and_hazards.md R502). -/
def idle (s : State) : State := { s with rsp := none }

/-- The host's next event becomes this command. -/
def pushCommand (q : Ports) (s : State) : State :=
  { s with script := .command q :: s.script }

end Sys2Proof.Machine
end

