-- ==== Sys2Proof/Machine/Operands.lean ====
section
/-! DEFINITION. How each operand is taken from its port (30_encoding.md R73), and the operand fetch of a boolean or text mode
(40_mode_selector_mux.md R103). -/

namespace Sys2Proof.Machine

/-- The depth flag `one` (40_mode_selector_mux.md R100). -/
def oneBit (s : State) : Bool := s.ports.dst1bit == 1

/-- `xi = x[2:0]` (30_encoding.md R73). -/
def coordX (s : State) : BitVec 3 := s.ports.x.extractLsb' 0 3

/-- `yi = y[2:0]` (30_encoding.md R73). -/
def coordY (s : State) : BitVec 3 := s.ports.y.extractLsb' 0 3

/-- The blend weight `w = sext_32(weight)`, a signed integer with no scaling (30_encoding.md R73). -/
def blendWeight (s : State) : Int := s.ports.weight.toInt

/-- `CLASS(src_class)`; `none` is the reserved class, whose reading is the error `InvalidOperand` (10_state.md R31). -/
def classOf (b : BitVec 2) : Option OperandClass :=
  match b.toFin with
  | 0 => some .white
  | 1 => some .black
  | 2 => some .other
  | 3 => none

/-- An operand of a boolean or text mode: its class `k` and the coverage `c` of an OTHER operand (00_scope.md R14). -/
structure Operand where
  k : OperandClass
  c : Nat
  deriving DecidableEq, Repr

/-- The operand of a source or text mode: the caller's class and coverage (40_mode_selector_mux.md R103). -/
def sourceOperand (s : State) : Option Operand :=
  match classOf s.ports.srcClass with
  | some k => some { k := k, c := s.ports.srcCov.toNat }
  | none => none

/-- The operand of a pattern mode: BLACK where the pattern bit is 1, WHITE where it is 0, never OTHER; its coverage is not used
(40_mode_selector_mux.md R103, 44_pattern_tile_lut.md R314). -/
def patternOperand (s : State) : Operand :=
  { k := if patSample s.pat s.ports.x s.ports.y = 1 then .black else .white, c := 0 }

/-- The operand fetch of a boolean mode (40_mode_selector_mux.md R103): `src_class` is read by source modes only. -/
def boolOperand (o : BoolOperand) (s : State) : Option Operand :=
  match o with
  | .source => sourceOperand s
  | .pattern => some (patternOperand s)

/-- `D` in the destination's format (40_mode_selector_mux.md R104). -/
def dstOperand (s : State) : Pixel := inFormat (oneBit s) s.ports.dstPix

/-- `S` in the destination's format (40_mode_selector_mux.md R104). -/
def srcOperand (s : State) : Pixel := inFormat (oneBit s) s.ports.srcPix

/-- The effective foreground `F`: the background under the highlight modifier (40_mode_selector_mux.md R104, R105). -/
def foreOperand (mod : Modifier) (s : State) : Pixel :=
  inFormat (oneBit s) (if mod = .hilite then s.ports.bg else s.ports.fg)

/-- The effective background `Bk`: the foreground under the highlight modifier (40_mode_selector_mux.md R104, R105). -/
def backOperand (mod : Modifier) (s : State) : Pixel :=
  inFormat (oneBit s) (if mod = .hilite then s.ports.fg else s.ports.bg)

end Sys2Proof.Machine
end

