-- ==== Sys2Proof/Machine/ArithUnit.lean ====
section
/-! DEFINITION. The `arithmetic_blend_unit` (42_arithmetic_blend_unit.md R200 to R205): per-channel arithmetic on exact integers,
brought back to 0..65535 only by the clamp, wrap or division its rule names. -/

namespace Sys2Proof.Machine

/-- BLEND on one channel, with weight w in 0..65535 (42_arithmetic_blend_unit.md R210). -/
def blendChan (w s d : Nat) : Nat := (s * w + d * (65535 - w)) / 65535

/-- ADD_PIN on one channel (42_arithmetic_blend_unit.md R211). -/
def addPinChan (s d : Nat) : Nat := min (s + d) 65535

/-- ADD_OVER on one channel (42_arithmetic_blend_unit.md R212). -/
def addOverChan (s d : Nat) : Nat := (s + d) % 65536

/-- SUB_PIN on one channel: the exact signed difference, clamped at 0 (42_arithmetic_blend_unit.md R213). -/
def subPinChan (s d : Nat) : Nat := (max ((d : Int) - (s : Int)) 0).toNat

/-- ADD_MAX on one channel (42_arithmetic_blend_unit.md R215). -/
def addMaxChan (s d : Nat) : Nat := max s d

/-- SUB_OVER on one channel: the non-negative remainder of the exact signed difference (42_arithmetic_blend_unit.md R205, R216). -/
def subOverChan (s d : Nat) : Nat := (((d : Int) - (s : Int)) % 65536).toNat

/-- ADD_MIN on one channel (42_arithmetic_blend_unit.md R217). -/
def addMinChan (s d : Nat) : Nat := min s d

/-- `ArithUnit` (42_arithmetic_blend_unit.md R204). TRANSPARENT compares whole pixels, on both depths (R214). -/
def arithUnit (aop : ArithOp) (s d bk : Pixel) (w : Nat) : Pixel :=
  match aop with
  | .blend => lanes (blendChan w) s d
  | .addPin => lanes addPinChan s d
  | .addOver => lanes addOverChan s d
  | .subPin => lanes subPinChan s d
  | .transparent => if s = bk then d else s
  | .addMax => lanes addMaxChan s d
  | .subOver => lanes subOverChan s d
  | .addMin => lanes addMinChan s d

/-- The reversion table `REVERT`; TRANSPARENT has no entry (42_arithmetic_blend_unit.md R203). -/
def revertFamily : ArithOp → Option Family
  | .blend => some .copy
  | .addPin => some .bic
  | .addOver => some .xor
  | .subPin => some .or
  | .transparent => none
  | .addMax => some .bic
  | .subOver => some .xor
  | .addMin => some .or

end Sys2Proof.Machine
end

