-- ==== Sys2Proof/Machine/DitherUnit.lean ====
section
/-! DEFINITION. The `dither_unit` (43_dither_and_modifiers.md R230): the projection of an OTHER operand, and the fixed dither
pattern of the text-only mode. It holds no state. -/

namespace Sys2Proof.Machine

/-- The dither level of a coverage, 0..64 (43_dither_and_modifiers.md R232). -/
def ditherLevel (c : Nat) : Nat := (64 * c + 32767) / 65535

/-- `DITHER_MATRIX[yi][xi]` (43_dither_and_modifiers.md R231). -/
def threshold (m : DitherMatrix) (xi yi : BitVec 3) : Nat := (m.get (cellIndex xi yi)).val

/-- `Project(c, xi, yi, dith)` (43_dither_and_modifiers.md R232): the midpoint threshold without the dither modifier, the
ordered-dither threshold with it. -/
def project (m : DitherMatrix) (c : Nat) (xi yi : BitVec 3) (dith : Bool) : OperandClass :=
  if dith then
    if ditherLevel c > threshold m xi yi then .black else .white
  else
    if c ≥ 32768 then .black else .white

/-- `GRAY64`, the constant behind the text dither pattern, apart from `PAT` (43_dither_and_modifiers.md R234). -/
def gray64 : Grid := 0xAA55AA55AA55AA55

/-- `TextBit(xi, yi)` (43_dither_and_modifiers.md R234). -/
def textBit (xi yi : BitVec 3) : Bit := cellOf gray64 xi yi

end Sys2Proof.Machine
end

