-- ==== Sys2Proof/Machine/BoolUnit.lean ====
section
/-! DEFINITION. The `boolean_transfer_mode_alu` (41_boolean_transfer_alu.md R120 to R126): no state, and it cannot fail. -/

namespace Sys2Proof.Machine

/-- One channel of the weighted mix, rounded down (41_boolean_transfer_alu.md R125). -/
def mixChan (c p q : Nat) : Nat := (q * c + p * (65535 - c)) / 65535

/-- `MIX(a, b, c)`: the colour a pulled toward b with weight c (41_boolean_transfer_alu.md R125). -/
def mix (a b : Pixel) (c : Nat) : Pixel := lanes (mixChan c) a b

/-- `INV(D)` of a 1-bit destination (41_boolean_transfer_alu.md R126). -/
def invertBit (d : Pixel) : Pixel := d ^^^ 1

/-- The inversion of the operand's sense (41_boolean_transfer_alu.md R122): BLACK and WHITE are exchanged, OTHER keeps its
class with its coverage replaced by `65535 - c`. -/
def invertOperand (o : Operand) : Operand :=
  match o.k with
  | .black => { o with k := .white }
  | .white => { o with k := .black }
  | .other => { o with c := 65535 - o.c }

/-- The projection of an OTHER operand on a 1-bit destination, but for family XOR, which never projects
(41_boolean_transfer_alu.md R123). -/
def projectOperand (m : DitherMatrix) (fam : Family) (one : Bool) (xi yi : BitVec 3) (dith : Bool) (o : Operand) : Operand :=
  if one = true ∧ o.k = .other ∧ fam ≠ .xor then { o with k := project m o.c xi yi dith } else o

/-- The family table (41_boolean_transfer_alu.md R124). -/
def familyTable (fam : Family) (o : Operand) (d f bk : Pixel) : Pixel :=
  match fam, o.k with
  | .copy, .black => f
  | .copy, .white => bk
  | .copy, .other => mix bk f o.c
  | .or, .black => f
  | .or, .white => d
  | .or, .other => mix d f o.c
  | .xor, .black => invertBit d
  | .xor, .white => d
  | .xor, .other => d
  | .bic, .black => bk
  | .bic, .white => d
  | .bic, .other => mix d bk o.c

/-- `BoolALU` (41_boolean_transfer_alu.md R121): inversion, then projection, then the family table. -/
def boolALU (m : DitherMatrix) (fam : Family) (inv : Bool) (o : Operand) (d f bk : Pixel) (one : Bool) (xi yi : BitVec 3)
    (dith : Bool) : Pixel :=
  familyTable fam (projectOperand m fam one xi yi dith (if inv then invertOperand o else o)) d f bk

end Sys2Proof.Machine
end

