-- ==== Sys2Proof/Machine/TextUnit.lean ====
section
/-! DEFINITION. The text-only mode's path (43_dither_and_modifiers.md R236). -/

namespace Sys2Proof.Machine

/-- One channel of the gray halfway between foreground and background (43_dither_and_modifiers.md R236). -/
def halfChan (f b : Nat) : Nat := (f + b) / 2

/-- The gray colour `G` of 43_dither_and_modifiers.md R236. -/
def textGray (f bk : Pixel) : Pixel := lanes halfChan f bk

/-- Whether a text operand counts as BLACK on a 1-bit destination: an OTHER operand is projected with the midpoint threshold
(43_dither_and_modifiers.md R236). -/
def textBlack (m : DitherMatrix) (o : Operand) (xi yi : BitVec 3) : Bool :=
  match o.k with
  | .black => true
  | .white => false
  | .other => project m o.c xi yi false == .black

/-- `GrayText` (43_dither_and_modifiers.md R236): source-OR with the solid fill replaced, by the gray on a colour destination
and by the fixed dither pattern on a 1-bit one. -/
def grayText (m : DitherMatrix) (o : Operand) (d f bk : Pixel) (one : Bool) (xi yi : BitVec 3) : Pixel :=
  if one then
    if textBlack m o xi yi = true ∧ textBit xi yi = 1 then f else d
  else
    match o.k with
    | .black => textGray f bk
    | .white => d
    | .other => mix d (textGray f bk) o.c

end Sys2Proof.Machine
end

