-- ==== Sys2Proof/Machine/Selector.lean ====
section
/-! DEFINITION. COMPOSITE as the `mode_selector_mux` runs it after the decode (40_mode_selector_mux.md R100 to R109): revert,
fetch, format, modify, check, and select the result of one unit. -/

namespace Sys2Proof.Machine

/-- Reversion (40_mode_selector_mux.md R102): on a 1-bit destination an arithmetic mode but TRANSPARENT becomes the boolean
source mode of its `REVERT` entry, plain and without modifier. -/
def revertMode (one : Bool) (md : Mode) : Mode :=
  match md with
  | .arith aop =>
    match one, revertFamily aop with
    | true, some fam => .bool .source false fam .none
    | true, none => .arith aop
    | false, _ => .arith aop
  | .bool o inv fam mod => .bool o inv fam mod
  | .text => .text

/-- A boolean mode (40_mode_selector_mux.md R103 to R106, R108): a reserved class is `InvalidOperand`, checked first; family
XOR on a colour destination is `UndefinedOperation`, whatever the operand. -/
def boolPixel (o : BoolOperand) (inv : Bool) (fam : Family) (mod : Modifier) (s : State) : Except ErrorKind Pixel :=
  match boolOperand o s with
  | none => .error .invalidOperand
  | some opd =>
    if fam = .xor ∧ oneBit s = false then .error .undefinedOperation
    else
      .ok (boolALU s.cfg.matrix fam inv opd (dstOperand s) (foreOperand mod s) (backOperand mod s) (oneBit s) (coordX s)
        (coordY s) (mod == .dither))

/-- An arithmetic mode that was not reverted (40_mode_selector_mux.md R107, R108): only BLEND checks the weight, which here has
a colour destination, as BLEND reverts on the other. -/
def arithPixel (aop : ArithOp) (s : State) : Except ErrorKind Pixel :=
  if aop = .blend ∧ (blendWeight s < 0 ∨ blendWeight s > 65535) then .error .invalidWeight
  else .ok (arithUnit aop (srcOperand s) (dstOperand s) (backOperand .none s) (blendWeight s).toNat)

/-- The text-only mode (40_mode_selector_mux.md R103, R108). -/
def textPixel (s : State) : Except ErrorKind Pixel :=
  match sourceOperand s with
  | none => .error .invalidOperand
  | some opd =>
    .ok (grayText s.cfg.matrix opd (dstOperand s) (foreOperand .none s) (backOperand .none s) (oneBit s) (coordX s)
      (coordY s))

/-- Exactly one unit computes the result of a mode, after reversion and the checks (40_mode_selector_mux.md R108). -/
def compositePixel (md : Mode) (s : State) : Except ErrorKind Pixel :=
  match revertMode (oneBit s) md with
  | .bool o inv fam mod => boolPixel o inv fam mod s
  | .arith aop => arithPixel aop s
  | .text => textPixel s

/-- COMPOSITE of a decoded mode (40_mode_selector_mux.md R100): the result on `rsp.pix` with status OK, on a 1-bit destination
as `zext_48` of its bit (R104), or the error response (R109). It writes no state. -/
def composite (md : Mode) (s : State) : Host.Outcome State Fault Refusal :=
  match compositePixel md s with
  | .ok r => .next (driveOk (inFormat (oneBit s) r) 0 s)
  | .error e => .next (raise e s)

end Sys2Proof.Machine
end

