-- ==== Sys2Proof/Machine/Arithmetic.lean ====
section
/-! DEFINITION. The meanings of the arithmetic modes, codes 32..39 (42_arithmetic_blend_unit.md R210 to R217), each over the shared COMPOSITE. -/

namespace Sys2Proof.Machine

/-- `COMPOSITE BLEND` (R210). -/
def execBlend (s : State) : Host.Outcome State Fault Refusal :=
  composite (.arith .blend) s

/-- `COMPOSITE ADD_PIN` (R211). -/
def execAddPin (s : State) : Host.Outcome State Fault Refusal :=
  composite (.arith .addPin) s

/-- `COMPOSITE ADD_OVER` (R212). -/
def execAddOver (s : State) : Host.Outcome State Fault Refusal :=
  composite (.arith .addOver) s

/-- `COMPOSITE SUB_PIN` (R213). -/
def execSubPin (s : State) : Host.Outcome State Fault Refusal :=
  composite (.arith .subPin) s

/-- `COMPOSITE TRANSPARENT` (R214). -/
def execTransparent (s : State) : Host.Outcome State Fault Refusal :=
  composite (.arith .transparent) s

/-- `COMPOSITE ADD_MAX` (R215). -/
def execAddMax (s : State) : Host.Outcome State Fault Refusal :=
  composite (.arith .addMax) s

/-- `COMPOSITE SUB_OVER` (R216). -/
def execSubOver (s : State) : Host.Outcome State Fault Refusal :=
  composite (.arith .subOver) s

/-- `COMPOSITE ADD_MIN` (R217). -/
def execAddMin (s : State) : Host.Outcome State Fault Refusal :=
  composite (.arith .addMin) s

end Sys2Proof.Machine
end

