-- ==== Sys2Proof/Machine/BoolPattern.lean ====
section
/-! DEFINITION. The meanings of the boolean pattern modes, codes 8..15 (41_boolean_transfer_alu.md R138 to R145), each over the shared COMPOSITE. -/

namespace Sys2Proof.Machine

/-- `COMPOSITE PAT_COPY` (R138). -/
def execPatCopy (s : State) : Host.Outcome State Fault Refusal :=
  composite (.bool .pattern false .copy .none) s

/-- `COMPOSITE PAT_OR` (R139). -/
def execPatOr (s : State) : Host.Outcome State Fault Refusal :=
  composite (.bool .pattern false .or .none) s

/-- `COMPOSITE PAT_XOR` (R140). -/
def execPatXor (s : State) : Host.Outcome State Fault Refusal :=
  composite (.bool .pattern false .xor .none) s

/-- `COMPOSITE PAT_BIC` (R141). -/
def execPatBic (s : State) : Host.Outcome State Fault Refusal :=
  composite (.bool .pattern false .bic .none) s

/-- `COMPOSITE NOT_PAT_COPY` (R142). -/
def execNotPatCopy (s : State) : Host.Outcome State Fault Refusal :=
  composite (.bool .pattern true .copy .none) s

/-- `COMPOSITE NOT_PAT_OR` (R143). -/
def execNotPatOr (s : State) : Host.Outcome State Fault Refusal :=
  composite (.bool .pattern true .or .none) s

/-- `COMPOSITE NOT_PAT_XOR` (R144). -/
def execNotPatXor (s : State) : Host.Outcome State Fault Refusal :=
  composite (.bool .pattern true .xor .none) s

/-- `COMPOSITE NOT_PAT_BIC` (R145). -/
def execNotPatBic (s : State) : Host.Outcome State Fault Refusal :=
  composite (.bool .pattern true .bic .none) s

end Sys2Proof.Machine
end

