-- ==== Sys2Proof/Machine/BoolSource.lean ====
section
/-! DEFINITION. The meanings of the boolean source modes, codes 0..7 (41_boolean_transfer_alu.md R130 to R137), each over the shared COMPOSITE. -/

namespace Sys2Proof.Machine

/-- `COMPOSITE SRC_COPY` (R130). -/
def execSrcCopy (s : State) : Host.Outcome State Fault Refusal :=
  composite (.bool .source false .copy .none) s

/-- `COMPOSITE SRC_OR` (R131). -/
def execSrcOr (s : State) : Host.Outcome State Fault Refusal :=
  composite (.bool .source false .or .none) s

/-- `COMPOSITE SRC_XOR` (R132). -/
def execSrcXor (s : State) : Host.Outcome State Fault Refusal :=
  composite (.bool .source false .xor .none) s

/-- `COMPOSITE SRC_BIC` (R133). -/
def execSrcBic (s : State) : Host.Outcome State Fault Refusal :=
  composite (.bool .source false .bic .none) s

/-- `COMPOSITE NOT_SRC_COPY` (R134). -/
def execNotSrcCopy (s : State) : Host.Outcome State Fault Refusal :=
  composite (.bool .source true .copy .none) s

/-- `COMPOSITE NOT_SRC_OR` (R135). -/
def execNotSrcOr (s : State) : Host.Outcome State Fault Refusal :=
  composite (.bool .source true .or .none) s

/-- `COMPOSITE NOT_SRC_XOR` (R136). -/
def execNotSrcXor (s : State) : Host.Outcome State Fault Refusal :=
  composite (.bool .source true .xor .none) s

/-- `COMPOSITE NOT_SRC_BIC` (R137). -/
def execNotSrcBic (s : State) : Host.Outcome State Fault Refusal :=
  composite (.bool .source true .bic .none) s

end Sys2Proof.Machine
end

