-- ==== Sys2Proof/Machine/Dither.lean ====
section
/-! DEFINITION. The meanings of the dither codes, 66..79, and 64, 65 under DITHER_FIRST (43_dither_and_modifiers.md R260 to R275), each over the shared COMPOSITE. -/

namespace Sys2Proof.Machine

/-- `COMPOSITE DITHER_SRC_COPY` (R260). -/
def execDitherSrcCopy (s : State) : Host.Outcome State Fault Refusal :=
  composite (.bool .source false .copy .dither) s

/-- `COMPOSITE DITHER_SRC_OR` (R261). -/
def execDitherSrcOr (s : State) : Host.Outcome State Fault Refusal :=
  composite (.bool .source false .or .dither) s

/-- `COMPOSITE DITHER_SRC_XOR` (R262). -/
def execDitherSrcXor (s : State) : Host.Outcome State Fault Refusal :=
  composite (.bool .source false .xor .dither) s

/-- `COMPOSITE DITHER_SRC_BIC` (R263). -/
def execDitherSrcBic (s : State) : Host.Outcome State Fault Refusal :=
  composite (.bool .source false .bic .dither) s

/-- `COMPOSITE DITHER_NOT_SRC_COPY` (R264). -/
def execDitherNotSrcCopy (s : State) : Host.Outcome State Fault Refusal :=
  composite (.bool .source true .copy .dither) s

/-- `COMPOSITE DITHER_NOT_SRC_OR` (R265). -/
def execDitherNotSrcOr (s : State) : Host.Outcome State Fault Refusal :=
  composite (.bool .source true .or .dither) s

/-- `COMPOSITE DITHER_NOT_SRC_XOR` (R266). -/
def execDitherNotSrcXor (s : State) : Host.Outcome State Fault Refusal :=
  composite (.bool .source true .xor .dither) s

/-- `COMPOSITE DITHER_NOT_SRC_BIC` (R267). -/
def execDitherNotSrcBic (s : State) : Host.Outcome State Fault Refusal :=
  composite (.bool .source true .bic .dither) s

/-- `COMPOSITE DITHER_PAT_COPY` (R268). -/
def execDitherPatCopy (s : State) : Host.Outcome State Fault Refusal :=
  composite (.bool .pattern false .copy .dither) s

/-- `COMPOSITE DITHER_PAT_OR` (R269). -/
def execDitherPatOr (s : State) : Host.Outcome State Fault Refusal :=
  composite (.bool .pattern false .or .dither) s

/-- `COMPOSITE DITHER_PAT_XOR` (R270). -/
def execDitherPatXor (s : State) : Host.Outcome State Fault Refusal :=
  composite (.bool .pattern false .xor .dither) s

/-- `COMPOSITE DITHER_PAT_BIC` (R271). -/
def execDitherPatBic (s : State) : Host.Outcome State Fault Refusal :=
  composite (.bool .pattern false .bic .dither) s

/-- `COMPOSITE DITHER_NOT_PAT_COPY` (R272). -/
def execDitherNotPatCopy (s : State) : Host.Outcome State Fault Refusal :=
  composite (.bool .pattern true .copy .dither) s

/-- `COMPOSITE DITHER_NOT_PAT_OR` (R273). -/
def execDitherNotPatOr (s : State) : Host.Outcome State Fault Refusal :=
  composite (.bool .pattern true .or .dither) s

/-- `COMPOSITE DITHER_NOT_PAT_XOR` (R274). -/
def execDitherNotPatXor (s : State) : Host.Outcome State Fault Refusal :=
  composite (.bool .pattern true .xor .dither) s

/-- `COMPOSITE DITHER_NOT_PAT_BIC` (R275). -/
def execDitherNotPatBic (s : State) : Host.Outcome State Fault Refusal :=
  composite (.bool .pattern true .bic .dither) s

end Sys2Proof.Machine
end

