-- ==== Sys2Proof/Machine/Hilite.lean ====
section
/-! DEFINITION. The meanings of the highlight codes, 50..63, and 64, 65 under HILITE_FIRST (43_dither_and_modifiers.md R240 to R255), each over the shared COMPOSITE. -/

namespace Sys2Proof.Machine

/-- `COMPOSITE HILITE_SRC_COPY` (R240). -/
def execHiliteSrcCopy (s : State) : Host.Outcome State Fault Refusal :=
  composite (.bool .source false .copy .hilite) s

/-- `COMPOSITE HILITE_SRC_OR` (R241). -/
def execHiliteSrcOr (s : State) : Host.Outcome State Fault Refusal :=
  composite (.bool .source false .or .hilite) s

/-- `COMPOSITE HILITE_SRC_XOR` (R242). -/
def execHiliteSrcXor (s : State) : Host.Outcome State Fault Refusal :=
  composite (.bool .source false .xor .hilite) s

/-- `COMPOSITE HILITE_SRC_BIC` (R243). -/
def execHiliteSrcBic (s : State) : Host.Outcome State Fault Refusal :=
  composite (.bool .source false .bic .hilite) s

/-- `COMPOSITE HILITE_NOT_SRC_COPY` (R244). -/
def execHiliteNotSrcCopy (s : State) : Host.Outcome State Fault Refusal :=
  composite (.bool .source true .copy .hilite) s

/-- `COMPOSITE HILITE_NOT_SRC_OR` (R245). -/
def execHiliteNotSrcOr (s : State) : Host.Outcome State Fault Refusal :=
  composite (.bool .source true .or .hilite) s

/-- `COMPOSITE HILITE_NOT_SRC_XOR` (R246). -/
def execHiliteNotSrcXor (s : State) : Host.Outcome State Fault Refusal :=
  composite (.bool .source true .xor .hilite) s

/-- `COMPOSITE HILITE_NOT_SRC_BIC` (R247). -/
def execHiliteNotSrcBic (s : State) : Host.Outcome State Fault Refusal :=
  composite (.bool .source true .bic .hilite) s

/-- `COMPOSITE HILITE_PAT_COPY` (R248). -/
def execHilitePatCopy (s : State) : Host.Outcome State Fault Refusal :=
  composite (.bool .pattern false .copy .hilite) s

/-- `COMPOSITE HILITE_PAT_OR` (R249). -/
def execHilitePatOr (s : State) : Host.Outcome State Fault Refusal :=
  composite (.bool .pattern false .or .hilite) s

/-- `COMPOSITE HILITE_PAT_XOR` (R250). -/
def execHilitePatXor (s : State) : Host.Outcome State Fault Refusal :=
  composite (.bool .pattern false .xor .hilite) s

/-- `COMPOSITE HILITE_PAT_BIC` (R251). -/
def execHilitePatBic (s : State) : Host.Outcome State Fault Refusal :=
  composite (.bool .pattern false .bic .hilite) s

/-- `COMPOSITE HILITE_NOT_PAT_COPY` (R252). -/
def execHiliteNotPatCopy (s : State) : Host.Outcome State Fault Refusal :=
  composite (.bool .pattern true .copy .hilite) s

/-- `COMPOSITE HILITE_NOT_PAT_OR` (R253). -/
def execHiliteNotPatOr (s : State) : Host.Outcome State Fault Refusal :=
  composite (.bool .pattern true .or .hilite) s

/-- `COMPOSITE HILITE_NOT_PAT_XOR` (R254). -/
def execHiliteNotPatXor (s : State) : Host.Outcome State Fault Refusal :=
  composite (.bool .pattern true .xor .hilite) s

/-- `COMPOSITE HILITE_NOT_PAT_BIC` (R255). -/
def execHiliteNotPatBic (s : State) : Host.Outcome State Fault Refusal :=
  composite (.bool .pattern true .bic .hilite) s

end Sys2Proof.Machine
end

