-- ==== Sys2Proof/Machine/PatternLoad.lean ====
section
/-! DEFINITION. The meanings of the pattern commands (44_pattern_tile_lut.md R310 to R313). Each drives `rsp.pix` with `dst_pix`
(10_state.md R28). -/

namespace Sys2Proof.Machine

/-- `LDPAT.SEED`: the pattern of the seed on `arg` (R310). -/
def execLdpatSeed (s : State) : Host.Outcome State Fault Refusal :=
  .next (driveOk s.ports.dstPix 0 (writePat (seedPat s.ports.arg) s))

/-- `LDPAT.SOLID`: the solid pattern of `arg[0]`; `arg[31:1]` is ignored (R311). -/
def execLdpatSolid (s : State) : Host.Outcome State Fault Refusal :=
  .next (driveOk s.ports.dstPix 0 (writePat (solidPat (s.ports.arg.extractLsb' 0 1)) s))

/-- `LDPAT.PRESET`: the predefined pattern whose index is all of `arg`; any other index is `InvalidPreset`, and `PAT` is kept
(R312). -/
def execLdpatPreset (s : State) : Host.Outcome State Fault Refusal :=
  match presetPat s.ports.arg with
  | some g => .next (driveOk s.ports.dstPix 0 (writePat g s))
  | none => .next (raise .invalidPreset s)

/-- `SAMPLE`: the pattern bit at (x, y) on `rsp.bit`; `PAT` is kept (R313). -/
def execSample (s : State) : Host.Outcome State Fault Refusal :=
  .next (driveOk s.ports.dstPix (patSample s.pat s.ports.x s.ports.y) s)

end Sys2Proof.Machine
end

