-- ==== Sys2Proof/Machine/Text.lean ====
section
/-! DEFINITION. The meanings of the text-only mode, code 49 (43_dither_and_modifiers.md R236), each over the shared COMPOSITE. -/

namespace Sys2Proof.Machine

/-- `COMPOSITE GRAYISH_TEXT` (R236). -/
def execGrayishText (s : State) : Host.Outcome State Fault Refusal :=
  composite (.text) s

end Sys2Proof.Machine
end

