-- ==== Sys2Proof/Machine/Dispatch.lean ====
section
/-! DEFINITION. The dispatch of a decoded instruction to its meaning, one arm per constructor. -/

namespace Sys2Proof.Machine

def exec (i : Instr) (s : State) : Host.Outcome State Fault Refusal :=
  match i with
  | .srcCopy => Sys2Proof.Machine.execSrcCopy s
  | .srcOr => Sys2Proof.Machine.execSrcOr s
  | .srcXor => Sys2Proof.Machine.execSrcXor s
  | .srcBic => Sys2Proof.Machine.execSrcBic s
  | .notSrcCopy => Sys2Proof.Machine.execNotSrcCopy s
  | .notSrcOr => Sys2Proof.Machine.execNotSrcOr s
  | .notSrcXor => Sys2Proof.Machine.execNotSrcXor s
  | .notSrcBic => Sys2Proof.Machine.execNotSrcBic s
  | .patCopy => Sys2Proof.Machine.execPatCopy s
  | .patOr => Sys2Proof.Machine.execPatOr s
  | .patXor => Sys2Proof.Machine.execPatXor s
  | .patBic => Sys2Proof.Machine.execPatBic s
  | .notPatCopy => Sys2Proof.Machine.execNotPatCopy s
  | .notPatOr => Sys2Proof.Machine.execNotPatOr s
  | .notPatXor => Sys2Proof.Machine.execNotPatXor s
  | .notPatBic => Sys2Proof.Machine.execNotPatBic s
  | .blend => Sys2Proof.Machine.execBlend s
  | .addPin => Sys2Proof.Machine.execAddPin s
  | .addOver => Sys2Proof.Machine.execAddOver s
  | .subPin => Sys2Proof.Machine.execSubPin s
  | .transparent => Sys2Proof.Machine.execTransparent s
  | .addMax => Sys2Proof.Machine.execAddMax s
  | .subOver => Sys2Proof.Machine.execSubOver s
  | .addMin => Sys2Proof.Machine.execAddMin s
  | .grayishText => Sys2Proof.Machine.execGrayishText s
  | .hiliteSrcCopy => Sys2Proof.Machine.execHiliteSrcCopy s
  | .hiliteSrcOr => Sys2Proof.Machine.execHiliteSrcOr s
  | .hiliteSrcXor => Sys2Proof.Machine.execHiliteSrcXor s
  | .hiliteSrcBic => Sys2Proof.Machine.execHiliteSrcBic s
  | .hiliteNotSrcCopy => Sys2Proof.Machine.execHiliteNotSrcCopy s
  | .hiliteNotSrcOr => Sys2Proof.Machine.execHiliteNotSrcOr s
  | .hiliteNotSrcXor => Sys2Proof.Machine.execHiliteNotSrcXor s
  | .hiliteNotSrcBic => Sys2Proof.Machine.execHiliteNotSrcBic s
  | .hilitePatCopy => Sys2Proof.Machine.execHilitePatCopy s
  | .hilitePatOr => Sys2Proof.Machine.execHilitePatOr s
  | .hilitePatXor => Sys2Proof.Machine.execHilitePatXor s
  | .hilitePatBic => Sys2Proof.Machine.execHilitePatBic s
  | .hiliteNotPatCopy => Sys2Proof.Machine.execHiliteNotPatCopy s
  | .hiliteNotPatOr => Sys2Proof.Machine.execHiliteNotPatOr s
  | .hiliteNotPatXor => Sys2Proof.Machine.execHiliteNotPatXor s
  | .hiliteNotPatBic => Sys2Proof.Machine.execHiliteNotPatBic s
  | .ditherSrcCopy => Sys2Proof.Machine.execDitherSrcCopy s
  | .ditherSrcOr => Sys2Proof.Machine.execDitherSrcOr s
  | .ditherSrcXor => Sys2Proof.Machine.execDitherSrcXor s
  | .ditherSrcBic => Sys2Proof.Machine.execDitherSrcBic s
  | .ditherNotSrcCopy => Sys2Proof.Machine.execDitherNotSrcCopy s
  | .ditherNotSrcOr => Sys2Proof.Machine.execDitherNotSrcOr s
  | .ditherNotSrcXor => Sys2Proof.Machine.execDitherNotSrcXor s
  | .ditherNotSrcBic => Sys2Proof.Machine.execDitherNotSrcBic s
  | .ditherPatCopy => Sys2Proof.Machine.execDitherPatCopy s
  | .ditherPatOr => Sys2Proof.Machine.execDitherPatOr s
  | .ditherPatXor => Sys2Proof.Machine.execDitherPatXor s
  | .ditherPatBic => Sys2Proof.Machine.execDitherPatBic s
  | .ditherNotPatCopy => Sys2Proof.Machine.execDitherNotPatCopy s
  | .ditherNotPatOr => Sys2Proof.Machine.execDitherNotPatOr s
  | .ditherNotPatXor => Sys2Proof.Machine.execDitherNotPatXor s
  | .ditherNotPatBic => Sys2Proof.Machine.execDitherNotPatBic s
  | .ldpatSeed => Sys2Proof.Machine.execLdpatSeed s
  | .ldpatSolid => Sys2Proof.Machine.execLdpatSolid s
  | .ldpatPreset => Sys2Proof.Machine.execLdpatPreset s
  | .sample => Sys2Proof.Machine.execSample s

end Sys2Proof.Machine
end

