-- ==== Sys2Proof/Machine/Step.lean ====
section
/-! DEFINITION. One step of the machine: the host's next event. A command word that stands for no instruction ends with the
error it raises (30_encoding.md R84); with no event left the block is idle (60_exceptions.md R413). -/

namespace Sys2Proof.Machine

/-- The command on the request ports, decoded under the machine's `OVERLAP_POLICY` and run (20_memory.md R56). -/
def runPresented (s : State) : Host.Outcome State Fault Refusal :=
  match decode s.cfg.overlap s.ports.cw with
  | .ok i => exec i s
  | .error e => .next (raise e s)

/-- One step: one command is one atomic step of the block (00_scope.md R7, 70_reset_and_hazards.md R504). -/
def step (s : State) : Host.Outcome State Fault Refusal :=
  match s.script with
  | [] => .next (idle s)
  | .command q :: rest => runPresented (present q rest s)
  | .reset :: rest => .next (takeReset rest s)

/-- HOST INTERFACE. The state whose very next step runs the word `w` of `nbits` bits: a command with that word, and with every
other port as it stands, becomes the host's next event (log 1). -/
def State.withFetchWord (s : State) (nbits w : Nat) : State :=
  pushCommand { s.ports with cw := BitVec.ofNat 32 (w % 2 ^ nbits) } s

end Sys2Proof.Machine
end

