-- ==== Sys2Proof/Safety.lean ====
section
/-! DEFINITION. What claims call a safe state and a safe run, and the duties of the host outside the block
(70_reset_and_hazards.md R511). -/

namespace Sys2Proof.Machine

/-- What the response to the command on the ports `q` always satisfies: status 7 is never driven (60_exceptions.md R401); an
error drives `dst_pix` and a bit of 0 (R402); only SAMPLE drives a bit of 1, and only COMPOSITE a pixel of its own
(10_state.md R28); a COMPOSITE on a 1-bit destination that ends with OK drives `zext_48` of one bit (10_state.md R30). -/
structure ResponseLegal (q : Ports) (r : Response) : Prop where
  neverSeven : r.status ≠ 7
  errorDrivesDst : r.status ≠ 0 → r.pix = q.dstPix ∧ r.bit = 0
  bitOnlyBySample : cmdField q.cw ≠ 4 → r.bit = 0
  pixOnlyByComposite : cmdField q.cw ≠ 0 → r.pix = q.dstPix
  oneBitResult : cmdField q.cw = 0 → q.dst1bit = 1 → r.status = 0 → r.pix = zextBit (bitOf r.pix)

/-- The invariant of the machine: the dither matrix is a permutation of 0..63, as 43_dither_and_modifiers.md R231 demands of a
model, at least one value of `PAT_RESET` has been drawn, and the response, while one is driven, is legal for the command on
the ports. -/
structure State.Inv (s : State) : Prop where
  matrixPermutes : s.cfg.matrix.isPermutation = true
  resetTaken : s.draws ≠ 0
  responseLegal : ∀ r, s.rsp = some r → ResponseLegal s.ports r

/-! ### Host duties: outside the block, which never checks them (70_reset_and_hazards.md R511) -/

/-- Write-back, the host's: `rsp.pix` is stored only when the status is OK, on a 1-bit destination its bit 0 alone
(70_reset_and_hazards.md R506, R507). -/
def callerStore (q : Ports) (r : Response) (old : Pixel) : Pixel :=
  if r.status = 0 then inFormat (q.dst1bit == 1) r.pix else old

/-- The class that agrees with the source pixel: white and black by the palette's colours, or by the bit on a 1-bit
destination, and OTHER for any other colour (10_state.md R31, R32, 70_reset_and_hazards.md R511). A command that breaks this
runs from the class presented (93_implementation_defined.md U17).
DESIGN CHOICE (log 13), safe: the spec does not say whether OTHER can agree with a source pixel that is one bit (10_state.md
R30). Here it does, beside either bit, since 41_boolean_transfer_alu.md R123 and program P4 of 95_test_vectors.md present it: the
coverage, not the bit, then speaks for the colour. -/
def classAgrees (q : Ports) : Bool :=
  if q.dst1bit = 1 then
    q.srcClass == 2 || q.srcClass == (if bitOf q.srcPix = 1 then 1 else 0)
  else
    q.srcClass ==
      (if q.srcPix = monochromePalette 0 then 0 else if q.srcPix = monochromePalette 1 then 1 else 2)

/-- On a 1-bit destination the bit values stand in bit 0 (70_reset_and_hazards.md R511); the block ignores the other bits. -/
def oneBitClean (q : Ports) : Bool :=
  q.dst1bit != 1 ||
    [q.srcPix, q.dstPix, q.fg, q.bg].all fun p => p == zextBit (bitOf p)

/-- Same-pixel order, the host's: the second composite on a pixel is presented with what the first left there
(20_memory.md R57, 70_reset_and_hazards.md R505). -/
def feedsPixel (q : Ports) (r : Response) (q' : Ports) : Bool :=
  q'.dstPix == callerStore q r q.dstPix

end Sys2Proof.Machine
end

