-- ==== Sys2Proof/Certificates/Slice0/Obligations.lean ====
section
/-! DEFINITION. The statements about the model, each from a numbered rule of spec/ or derived from its sections. The result
statements are equations `exec i s = next t` with `t` written out as an update of `s`, so that each says at once that the
instruction completes, what it answers, and its frame: `PAT`, the ports, the host's script, the draws and the parameters are
those of `s`. The block has no memory (20_memory.md R50), so a frame has no byte of memory to speak of. -/

open Sys2Proof Sys2Proof.Machine

namespace Sys2Proof.Spec

/-! ### The words the statements are made of, written from the spec and not from the meanings -/

/-- `s` with the response (pix, bit 0, OK) driven, and nothing else changed (10_state.md R28). -/
def answers (s : State) (pix : Pixel) : Host.Outcome State Fault Refusal :=
  .next { s with rsp := some { pix := pix, bit := 0, status := 0 } }

/-- `s` with the error response of status `code` driven, and nothing else changed (60_exceptions.md R402). -/
def failsWith (s : State) (code : BitVec 3) : Host.Outcome State Fault Refusal :=
  .next { s with rsp := some { pix := s.ports.dstPix, bit := 0, status := code } }

/-- `zext_48(p[0])` (10_state.md R30). -/
def lowBit (p : Pixel) : Pixel := (p.extractLsb' 0 1).setWidth 48

/-- `PatSample(x, y) = 1` (44_pattern_tile_lut.md R302). -/
def tileBit (s : State) : Bool := s.pat.getLsbD (63 - (8 * (s.ports.y.toNat % 8) + s.ports.x.toNat % 8))

/-- `DITHER_MATRIX[y mod 8][x mod 8]` (43_dither_and_modifiers.md R231). -/
def ditherEntry (s : State) : Nat :=
  (s.cfg.matrix.get ⟨8 * (s.ports.y.toNat % 8) + s.ports.x.toNat % 8, by omega⟩).val

/-- `floor((64*c + 32767) / 65535)` (43_dither_and_modifiers.md R232). -/
def levelOf (c : Nat) : Nat := (64 * c + 32767) / 65535

/-- `f` on each channel of `S` and `D` (42_arithmetic_blend_unit.md R201, 10_state.md R29). -/
def perChannel (f : Nat → Nat → Nat) (S D : Pixel) : Pixel :=
  (BitVec.ofNat 16 (f (S.extractLsb' 32 16).toNat (D.extractLsb' 32 16).toNat) ++
    BitVec.ofNat 16 (f (S.extractLsb' 16 16).toNat (D.extractLsb' 16 16).toNat)) ++
    BitVec.ofNat 16 (f (S.extractLsb' 0 16).toNat (D.extractLsb' 0 16).toNat)

/-- `MIX(a, b, c)`: a pulled toward b with weight c, rounding down (41_boolean_transfer_alu.md R125). -/
def weighted (a b : Pixel) (c : Nat) : Pixel := perChannel (fun p q => (q * c + p * (65535 - c)) / 65535) a b

/-- The coverage of the source operand. -/
def coverage (s : State) : Nat := s.ports.srcCov.toNat

/-- A boolean source mode of family COPY, OR or BIC, by the class as presented: its errors, its three cells on a colour
destination, and on a 1-bit one with the midpoint threshold (41_boolean_transfer_alu.md R123, R124). -/
def SourceMode (i : Instr) (s : State) (onBlack onWhite onOther : Pixel) : Prop :=
  (s.ports.srcClass = 3 → exec i s = failsWith s 4) ∧
  (s.ports.dst1bit = 0 →
    (s.ports.srcClass = 1 → exec i s = answers s onBlack) ∧
    (s.ports.srcClass = 0 → exec i s = answers s onWhite) ∧
    (s.ports.srcClass = 2 → exec i s = answers s onOther)) ∧
  (s.ports.dst1bit = 1 →
    (s.ports.srcClass = 1 → exec i s = answers s (lowBit onBlack)) ∧
    (s.ports.srcClass = 0 → exec i s = answers s (lowBit onWhite)) ∧
    (s.ports.srcClass = 2 →
      exec i s = answers s (if 32768 ≤ coverage s then lowBit onBlack else lowBit onWhite)))

/-- A dithered boolean source mode of family COPY, OR or BIC: as `SourceMode`, but that on a 1-bit destination an OTHER operand
of coverage `c` (after inversion) gives `onBlackProjected` where its level exceeds the matrix entry and `onWhiteProjected`
elsewhere (43_dither_and_modifiers.md R232, R233). -/
def DitheredMode (i : Instr) (s : State) (onBlack onWhite onOther : Pixel) (c : Nat)
    (onBlackProjected onWhiteProjected : Pixel) : Prop :=
  (s.ports.srcClass = 3 → exec i s = failsWith s 4) ∧
  (s.ports.dst1bit = 0 →
    (s.ports.srcClass = 1 → exec i s = answers s onBlack) ∧
    (s.ports.srcClass = 0 → exec i s = answers s onWhite) ∧
    (s.ports.srcClass = 2 → exec i s = answers s onOther)) ∧
  (s.ports.dst1bit = 1 →
    (s.ports.srcClass = 1 → exec i s = answers s (lowBit onBlack)) ∧
    (s.ports.srcClass = 0 → exec i s = answers s (lowBit onWhite)) ∧
    (s.ports.srcClass = 2 →
      exec i s = answers s (if ditherEntry s < levelOf c then lowBit onBlackProjected else lowBit onWhiteProjected)))

/-- A boolean source mode of family XOR: `InvalidOperand` first, `UndefinedOperation` on a colour destination whatever the
class, and on a 1-bit destination the class `flips` inverts the destination while the others leave it
(41_boolean_transfer_alu.md R124, R126, 40_mode_selector_mux.md R106). -/
def SourceXorMode (i : Instr) (s : State) (flips : BitVec 2) : Prop :=
  (s.ports.srcClass = 3 → exec i s = failsWith s 4) ∧
  (s.ports.srcClass ≠ 3 → s.ports.dst1bit = 0 → exec i s = failsWith s 2) ∧
  (s.ports.srcClass ≠ 3 → s.ports.dst1bit = 1 →
    exec i s = answers s (if s.ports.srcClass = flips then lowBit s.ports.dstPix ^^^ 1 else lowBit s.ports.dstPix))

/-- A boolean pattern mode of family COPY, OR or BIC: the pattern bit alone selects (41_boolean_transfer_alu.md R138 to R145). -/
def PatternMode (i : Instr) (s : State) (onSet onClear : Pixel) : Prop :=
  (s.ports.dst1bit = 0 → exec i s = answers s (if tileBit s then onSet else onClear)) ∧
  (s.ports.dst1bit = 1 → exec i s = answers s (lowBit (if tileBit s then onSet else onClear)))

/-- A boolean pattern mode of family XOR: `UndefinedOperation` on a colour destination; on a 1-bit one a pattern bit equal to
`flips` inverts the destination (41_boolean_transfer_alu.md R140, R144). -/
def PatternXorMode (i : Instr) (s : State) (flips : Bool) : Prop :=
  (s.ports.dst1bit = 0 → exec i s = failsWith s 2) ∧
  (s.ports.dst1bit = 1 →
    exec i s = answers s (if tileBit s = flips then lowBit s.ports.dstPix ^^^ 1 else lowBit s.ports.dstPix))

/-- An arithmetic mode without errors, on a colour destination (42_arithmetic_blend_unit.md R200, R201). -/
def ChannelMode (i : Instr) (s : State) (f : Nat → Nat → Nat) : Prop :=
  s.ports.dst1bit = 0 → exec i s = answers s (perChannel f s.ports.srcPix s.ports.dstPix)

/-- A boolean mode of family XOR (40_mode_selector_mux.md R106). -/
def isXorMode : Mode → Bool
  | .bool _ _ .xor _ => true
  | .bool _ _ .copy _ | .bool _ _ .or _ | .bool _ _ .bic _ | .arith _ | .text => false

/-- The first error condition of 60_exceptions.md R403 that holds for a command, as its status code (R400); 0 if none holds.
The modes are told apart by what the mode code decodes to (30_encoding.md R81). -/
def firstError (p : OverlapPolicy) (q : Ports) : BitVec 3 :=
  if q.cw.extractLsb' 16 13 ≠ 0 ∨ 5 ≤ (q.cw.extractLsb' 29 3).toNat then 6
  else if q.cw.extractLsb' 29 3 = 0 then
    match decodeMode p (q.cw.extractLsb' 0 16).toNat with
    | none => 1
    | some md =>
      if q.srcClass = 3 ∧
          (md.category = .boolSrc ∨ md.category = .text ∨
            (md.category = .arith ∧ md ≠ .arith .transparent ∧ q.dst1bit = 1)) then 4
      else if q.dst1bit = 0 ∧ isXorMode md = true then 2
      else if q.dst1bit = 0 ∧ md = .arith .blend ∧ (q.weight.toInt < 0 ∨ 65535 < q.weight.toInt) then 3
      else 0
  else if q.cw.extractLsb' 29 3 = 3 ∧ 4 < q.arg.toNat then 5
  else 0

/-- Two pixel port values that the destination's format does not tell apart: equal on a colour destination, equal in bit 0 on a
1-bit one (10_state.md R30). -/
def sameOperand (s : State) (a b : Pixel) : Prop :=
  (s.ports.dst1bit = 1 → lowBit a = lowBit b) ∧ (s.ports.dst1bit = 0 → a = b)

/-- The cell of `g` at the coordinates of `q` is 1 (44_pattern_tile_lut.md R302). -/
def cellSet (g : Grid) (q : Ports) : Bool := g.getLsbD (63 - (8 * (q.y.toNat % 8) + q.x.toNat % 8))

/-- `g` is what `PAT` holds after a pattern load on the ports `q`, from `old`: the seed twice, the solid grid, the predefined
pattern (44_pattern_tile_lut.md R310, R311, R312), and `old` after a load that fails, by its index or as an illegal word
(70_reset_and_hazards.md R509). -/
def LoadLeaves (p : OverlapPolicy) (q : Ports) (old g : Grid) : Prop :=
  (decode p q.cw = .ok .ldpatSeed ∧ g = q.arg ++ q.arg) ∨
  (decode p q.cw = .ok .ldpatSolid ∧ g = if q.arg.getLsbD 0 then 0xFFFFFFFFFFFFFFFF else 0x0000000000000000) ∨
  (decode p q.cw = .ok .ldpatPreset ∧
    ((q.arg = 0 ∧ g = 0x0000000000000000) ∨ (q.arg = 1 ∧ g = 0xFFFFFFFFFFFFFFFF) ∨ (q.arg = 2 ∧ g = 0xAA55AA55AA55AA55) ∨
      (q.arg = 3 ∧ g = 0x8822882288228822) ∨ (q.arg = 4 ∧ g = 0x77DD77DD77DD77DD) ∨ (4 < q.arg.toNat ∧ g = old))) ∨
  (decode p q.cw = .error .illegalCommand ∧ g = old)

/-- The 64 cells of a tile as coordinates (xi, yi). -/
def tile : List (BitVec 3 × BitVec 3) :=
  (List.range 64).map fun n => (BitVec.ofNat 3 (n % 8), BitVec.ofNat 3 (n / 8))

end Sys2Proof.Spec

open Sys2Proof.Spec

/-! ### Encoding -/

/-- Words written out from 30_encoding.md R86 and the rules' own `cw` decode to their instructions, under every policy. -/
def Obligations.SpecWordsDecode : Prop :=
  ∀ p : OverlapPolicy,
    decode p 0b00000000000000000000000000000000 = .ok .srcCopy ∧
    decode p 0b00000000000000000000000000001110 = .ok .notPatXor ∧
    decode p 0b00000000000000000000000000100000 = .ok .blend ∧
    decode p 0b00000000000000000000000000110001 = .ok .grayishText ∧
    decode p 0b00000000000000000000000000111111 = .ok .hiliteNotPatOr ∧
    decode p 0b00000000000000000000000001001111 = .ok .ditherNotPatBic ∧
    decode p 0b00100000000000000000000000100000 = .ok .ldpatSeed ∧
    decode p 0b01000000000000000000000000000000 = .ok .ldpatSolid ∧
    decode p 0b01100000000000000000000000000000 = .ok .ldpatPreset ∧
    decode p 0b10000000000000000000000000000000 = .ok .sample ∧
    decode .ditherFirst 0b00000000000000000000000001000000 = .ok .ditherSrcCopy ∧
    decode .hiliteFirst 0b00000000000000000000000001000001 = .ok .hiliteNotPatBic

/-- Decoding the word of an instruction that has one gives the instruction back, under every policy. -/
def Obligations.DecodeAfterEncode : Prop :=
  ∀ (p : OverlapPolicy) (i : Instr), i.wellFormed p = true → decode p (encode i) = .ok i

/-- Exactly the words of a well-formed instruction decode to it: its own word, and for a pattern command its word with anything in
the mode field, which those commands ignore. Both directions, so no bit of a word is dropped and none is added. -/
def Obligations.DecodeExactlyTheEncodedWords : Prop :=
  ∀ (p : OverlapPolicy) (w : Word) (i : Instr),
    decode p w = .ok i ↔
      (i.wellFormed p = true ∧ w.extractLsb' 16 16 = (encode i).extractLsb' 16 16 ∧ (i.mode.isSome = true → w = encode i))

/-- 30_encoding.md R75: the sixteen base codes, by their bits and by name. -/
def Obligations.BaseModeCodes : Prop :=
  ∀ p : OverlapPolicy,
    (∀ b : BitVec 4, decodeMode p b.toNat =
      some (.bool (if b.getLsbD 3 then .pattern else .source) (b.getLsbD 2)
        (match (b.extractLsb' 0 2).toFin with | 0 => .copy | 1 => .or | 2 => .xor | 3 => .bic) .none)) ∧
    decode p 0 = .ok .srcCopy ∧ decode p 1 = .ok .srcOr ∧ decode p 2 = .ok .srcXor ∧ decode p 3 = .ok .srcBic ∧
    decode p 4 = .ok .notSrcCopy ∧ decode p 5 = .ok .notSrcOr ∧ decode p 6 = .ok .notSrcXor ∧ decode p 7 = .ok .notSrcBic ∧
    decode p 8 = .ok .patCopy ∧ decode p 9 = .ok .patOr ∧ decode p 10 = .ok .patXor ∧ decode p 11 = .ok .patBic ∧
    decode p 12 = .ok .notPatCopy ∧ decode p 13 = .ok .notPatOr ∧ decode p 14 = .ok .notPatXor ∧
    decode p 15 = .ok .notPatBic

/-- 30_encoding.md R76, R77: the arithmetic codes and the text-only code. -/
def Obligations.ArithmeticAndTextCodes : Prop :=
  ∀ p : OverlapPolicy,
    decodeMode p 32 = some (.arith .blend) ∧ decodeMode p 33 = some (.arith .addPin) ∧
    decodeMode p 34 = some (.arith .addOver) ∧ decodeMode p 35 = some (.arith .subPin) ∧
    decodeMode p 36 = some (.arith .transparent) ∧ decodeMode p 37 = some (.arith .addMax) ∧
    decodeMode p 38 = some (.arith .subOver) ∧ decodeMode p 39 = some (.arith .addMin) ∧
    decodeMode p 49 = some .text ∧
    decode p 32 = .ok .blend ∧ decode p 33 = .ok .addPin ∧ decode p 34 = .ok .addOver ∧ decode p 35 = .ok .subPin ∧
    decode p 36 = .ok .transparent ∧ decode p 37 = .ok .addMax ∧ decode p 38 = .ok .subOver ∧ decode p 39 = .ok .addMin ∧
    decode p 49 = .ok .grayishText

/-- 30_encoding.md R78, R79: a modifier code is its base code plus the offset, and an arithmetic or text code plus an offset is
no mode and raises `UnsupportedMode`. -/
def Obligations.ModifierCodes : Prop :=
  (∀ (p : OverlapPolicy) (b : Nat) (o : BoolOperand) (inv : Bool) (fam : Family),
    b < 16 → decodeMode p b = some (.bool o inv fam .none) →
    ((b ≤ 13 ∨ p = .hiliteFirst) → decodeMode p (b + 50) = some (.bool o inv fam .hilite)) ∧
    ((2 ≤ b ∨ p = .ditherFirst) → decodeMode p (b + 64) = some (.bool o inv fam .dither))) ∧
  ∀ (p : OverlapPolicy) (a : Nat), (32 ≤ a ∧ a ≤ 39) ∨ a = 49 →
    decode p (BitVec.ofNat 32 (a + 50)) = .error .unsupportedMode ∧
    decode p (BitVec.ofNat 32 (a + 64)) = .error .unsupportedMode

/-- 30_encoding.md R80: the policy decides 64 and 65, and the instructions it passes over have no code. -/
def Obligations.OverlapPolicyDecides : Prop :=
  (decode .ditherFirst 64 = .ok .ditherSrcCopy ∧ decode .ditherFirst 65 = .ok .ditherSrcOr ∧
    ∀ w, decode .ditherFirst w ≠ .ok .hiliteNotPatXor ∧ decode .ditherFirst w ≠ .ok .hiliteNotPatBic) ∧
  (decode .hiliteFirst 64 = .ok .hiliteNotPatXor ∧ decode .hiliteFirst 65 = .ok .hiliteNotPatBic ∧
    ∀ w, decode .hiliteFirst w ≠ .ok .ditherSrcCopy ∧ decode .hiliteFirst w ≠ .ok .ditherSrcOr) ∧
  (decode .reject 64 = .error .unsupportedMode ∧ decode .reject 65 = .error .unsupportedMode) ∧
  ∀ (p p' : OverlapPolicy) (w : Word), w ≠ 64 → w ≠ 65 → decode p w = decode p' w

/-- 30_encoding.md R82: exactly the codes outside the known ranges raise `UnsupportedMode`. -/
def Obligations.UnsupportedModeCodes : Prop :=
  ∀ (p : OverlapPolicy) (w : Word), w.extractLsb' 16 16 = 0 →
    (decode p w = .error .unsupportedMode ↔
      (16 ≤ w.toNat ∧ w.toNat ≤ 31) ∨ (40 ≤ w.toNat ∧ w.toNat ≤ 48) ∨ 80 ≤ w.toNat ∨
        (p = .reject ∧ (w.toNat = 64 ∨ w.toNat = 65)))

/-- 30_encoding.md R72: a non-zero reserved field ends the command with `IllegalCommand` whatever its cmd, and commands 1 to 4
ignore the mode field. -/
def Obligations.ReservedFieldIsIllegal : Prop :=
  (∀ (s : State) (q : Ports) (rest : List HostEvent), s.script = .command q :: rest → q.cw.extractLsb' 16 13 ≠ 0 →
    step s = failsWith { s with ports := q, script := rest } 6) ∧
  (∀ (p : OverlapPolicy) (w : Word) (m : BitVec 16), w.extractLsb' 16 13 = 0 →
    1 ≤ (w.extractLsb' 29 3).toNat → (w.extractLsb' 29 3).toNat ≤ 4 →
    ∃ i, decode p w = .ok i ∧ decode p (w.extractLsb' 16 16 ++ m) = .ok i)

/-- What a COMPOSITE instruction does is decided by the mode its code decodes to: every instruction that decodes from cmd 0 names
that mode, and two instructions of one mode are one. -/
def Obligations.CompositeRunsItsDecodedMode : Prop :=
  ∀ (p : OverlapPolicy) (w : Word) (i : Instr), decode p w = .ok i → w.extractLsb' 29 3 = 0 →
    i.mode = decodeMode p (w.extractLsb' 0 16).toNat ∧ ∀ s : State, ∀ md, i.mode = some md → exec i s = composite md s

/-! ### Steps, reset and errors -/

/-- A step with a command presented whose word decodes runs that instruction, on the ports presented. -/
def Obligations.StepRunsPresentedCommand : Prop :=
  ∀ (s : State) (q : Ports) (rest : List HostEvent) (i : Instr),
    s.script = .command q :: rest → decode s.cfg.overlap q.cw = .ok i →
    step s = exec i { s with ports := q, script := rest, rsp := none }

/-- A step with no command presented: a reset draws `PAT_RESET` afresh and writes nothing else of the block; with no event left
the block is idle and holds `PAT`. No response is driven. (The counter of draws is the model's own: log 3.) -/
def Obligations.StepWithoutCommand : Prop :=
  ∀ s : State,
    (s.script = [] → step s = .next { s with rsp := none }) ∧
    (∀ rest, s.script = .reset :: rest →
      step s = .next { s with pat := Config.patReset s.draws, draws := s.draws + 1, script := rest, rsp := none })

/-- No step stops the block: every step has a next state, so the next command is accepted as usual. -/
def Obligations.NoStepStopsTheBlock : Prop :=
  ∀ s : State, ∃ t : State, step s = .next t

/-- The state after reset: `PAT` holds a draw of `PAT_RESET`, of which nothing is known, and no response is driven. (Ports,
script, counter and parameters are the model's choice: logs 1, 3, 4, 5, 9.) -/
def Obligations.ResetLeavesADrawnPattern : Prop :=
  State.reset.pat = Config.patReset 0 ∧ State.reset.rsp = none ∧ State.reset.script = [] ∧
    State.reset.cfg.overlap = .ditherFirst ∧ State.reset.cfg.matrix = bayerMatrix

/-- The invariant holds at reset, where the matrix is the model's choice (log 5) and the counter its own (log 3). -/
def Obligations.InvAtReset : Prop := State.reset.Inv

/-- Every step keeps the invariant, from every state that meets it. (The clause on the counter of draws is the model's own: log 3.) -/
def Obligations.InvKeptByStep : Prop :=
  ∀ s t : State, s.Inv → step s = .next t → t.Inv

/-- The response of a command, and what it leaves in `PAT`, are a function of `PAT` and the ports alone (under the same
parameters): two states that agree on these answer alike, whatever came before and whatever comes after. -/
def Obligations.ResponseFromPatAndPortsOnly : Prop :=
  ∀ (s u : State) (q : Ports) (rest rest' : List HostEvent),
    s.script = .command q :: rest → u.script = .command q :: rest' → s.pat = u.pat → s.cfg = u.cfg →
    ∃ (r : Response) (g : Grid),
      step s = .next { s with ports := q, script := rest, rsp := some r, pat := g } ∧
      step u = .next { u with ports := q, script := rest', rsp := some r, pat := g }

/-- The bits that are ignored do not matter: on every destination bits [31:3] of x and y, and on a 1-bit destination bits [47:1]
of the pixel ports too. Two presentations that differ in these alone end with the same status, and with the same pixel when that
is OK. -/
def Obligations.IgnoredBitsDoNotMatter : Prop :=
  ∀ (i : Instr) (s : State) (src dst fg bg : Pixel) (x y : Word),
    i.mode.isSome = true →
    sameOperand s src s.ports.srcPix → sameOperand s dst s.ports.dstPix →
    sameOperand s fg s.ports.fg → sameOperand s bg s.ports.bg →
    x.toNat % 8 = s.ports.x.toNat % 8 → y.toNat % 8 = s.ports.y.toNat % 8 →
    ∃ (t u : State) (r v : Response),
      exec i s = .next t ∧ t.rsp = some r ∧
      exec i { s with ports := { s.ports with srcPix := src, dstPix := dst, fg := fg, bg := bg, x := x, y := y } } = .next u ∧
      u.rsp = some v ∧ r.status = v.status ∧ (r.status = 0 → r.pix = v.pix)

/-- 10_state.md R25: `PAT` changes only by a pattern load that completes with status OK, and by reset. -/
def Obligations.PatWrittenOnlyByLoadsAndReset : Prop :=
  ∀ s t : State, step s = .next t → t.pat ≠ s.pat →
    (∃ rest, s.script = .reset :: rest) ∨
    (∃ q rest i r, s.script = .command q :: rest ∧ decode s.cfg.overlap q.cw = .ok i ∧
      (i = .ldpatSeed ∨ i = .ldpatSolid ∨ i = .ldpatPreset) ∧ t.rsp = some r ∧ r.status = 0)

/-- Only SAMPLE and the boolean pattern modes read `PAT`: every other instruction answers alike whatever pattern is loaded. -/
def Obligations.PatReadOnlyByPatternModes : Prop :=
  ∀ (i : Instr) (s : State) (g : Grid), i ≠ .sample → (∀ md, i.mode = some md → md.category ≠ .boolPat) →
    ∃ t u : State, exec i s = .next t ∧ exec i { s with pat := g } = .next u ∧ u.rsp = t.rsp

/-- 60_exceptions.md R401: status 7 is never driven. -/
def Obligations.StatusSevenNeverDriven : Prop :=
  ∀ (s t : State) (r : Response), step s = .next t → t.rsp = some r → r.status ≠ 7

/-- 60_exceptions.md R402: a command that ends with an error drives the error response and writes no state. -/
def Obligations.ErrorResponseWritesNothing : Prop :=
  ∀ (s t : State) (q : Ports) (rest : List HostEvent) (r : Response),
    s.script = .command q :: rest → step s = .next t → t.rsp = some r → r.status ≠ 0 →
    t = { s with ports := q, script := rest, rsp := some { pix := q.dstPix, bit := 0, status := r.status } }

/-- 60_exceptions.md R400, R401, R403: the status of every command is the first error condition that holds, as its 3-bit code, or
0; it is never 7. -/
def Obligations.StatusIsFirstError : Prop :=
  ∀ (s : State) (q : Ports) (rest : List HostEvent), s.script = .command q :: rest →
    ∃ (t : State) (r : Response), step s = .next t ∧ t.rsp = some r ∧ r.status = firstError s.cfg.overlap q ∧ r.status ≠ 7

/-- The command after a pattern load runs, whatever it is, as if the block had held the new pattern all along, and the command
after a failed load (`InvalidPreset`, `IllegalCommand`) as if the load had not been there: the two steps end as the second command
ends at the pattern that `LoadLeaves` gives. So SAMPLE answers the cell of that pattern and PAT_COPY, for one, the colour that cell
selects; what every other pattern mode makes of the cell at a state is said by its own statement. -/
def Obligations.SampleSeesLastLoad : Prop :=
  ∀ (s : State) (q q' : Ports) (rest : List HostEvent) (i : Instr) (g : Grid),
    s.script = .command q :: .command q' :: rest → decode s.cfg.overlap q'.cw = .ok i → LoadLeaves s.cfg.overlap q s.pat g →
    Host.Core.run core 2 s = exec i { s with pat := g, ports := q', script := rest, rsp := none } ∧
    (i = .sample → Host.Core.run core 2 s =
      .next { s with
        pat := g, ports := q', script := rest,
        rsp := some { pix := q'.dstPix, bit := if cellSet g q' then 1 else 0, status := 0 } }) ∧
    (i = .patCopy → Host.Core.run core 2 s =
      .next { s with
        pat := g, ports := q', script := rest,
        rsp := some {
          pix := if q'.dst1bit = 1 then lowBit (if cellSet g q' then q'.fg else q'.bg) else if cellSet g q' then q'.fg else q'.bg,
          bit := 0, status := 0 } })

/-- 60_exceptions.md R404: an error is reported in its own command's response and leaves no trace: the next command runs as if
the failed one had not been presented. -/
def Obligations.ErrorLeavesNoTrace : Prop :=
  ∀ (s t : State) (q q' : Ports) (rest : List HostEvent) (r : Response),
    s.script = .command q :: .command q' :: rest → step s = .next t → t.rsp = some r → r.status ≠ 0 →
    step t = step { s with script := .command q' :: rest }

/-! ### The units -/

/-- 41_boolean_transfer_alu.md R125: MIX channel by channel, its end points, its bounds and its symmetry. -/
def Obligations.WeightedMixLaws : Prop :=
  ∀ (a b : Pixel) (c : Nat), c ≤ 65535 →
    (∀ ch : Pixel → Chan, ch = redOf ∨ ch = greenOf ∨ ch = blueOf →
      (ch (mix a b c)).toNat = ((ch b).toNat * c + (ch a).toNat * (65535 - c)) / 65535 ∧
      min (ch a).toNat (ch b).toNat ≤ (ch (mix a b c)).toNat ∧
      (ch (mix a b c)).toNat ≤ max (ch a).toNat (ch b).toNat) ∧
    mix a b c = weighted a b c ∧ (c = 0 → mix a b c = a) ∧ (c = 65535 → mix a b c = b) ∧ mix a b (65535 - c) = mix b a c

/-- The pattern tiles: a sample is the same eight columns or eight rows on, also where the sum wraps. -/
def Obligations.SamplingTiles : Prop :=
  ∀ (g : Grid) (x y : Word),
    patSample g (x + 8) y = patSample g x y ∧ patSample g x (y + 8) = patSample g x y ∧
    patSample g (x + 8) (y + 8) = patSample g x y

/-- 44_pattern_tile_lut.md R304: row r of a seed's pattern is byte 3 - (r mod 4) of the seed, its most significant bit column 0. -/
def Obligations.SeedRows : Prop :=
  ∀ (seed : Word) (xi yi : BitVec 3),
    seedPat seed = seed ++ seed ∧
    (cellOf (seedPat seed) xi yi = 1 ↔ seed.getLsbD (8 * (3 - yi.toNat % 4) + (7 - xi.toNat)) = true)

/-- 43_dither_and_modifiers.md R232: the projection, and its corner cases. Under a matrix that is a permutation of 0..63 exactly
`levelOf c` of the 64 cells of a tile are black. -/
def Obligations.ProjectionCounts : Prop :=
  ∀ (m : DitherMatrix) (c : Nat), m.isPermutation = true → c ≤ 65535 →
    (∀ xi yi, project m c xi yi false = if 32768 ≤ c then .black else .white) ∧
    (∀ xi yi, project m c xi yi true =
      if (m.get ⟨8 * yi.toNat + xi.toNat, by omega⟩).val < levelOf c then .black else .white) ∧
    levelOf c ≤ 64 ∧ (c = 0 → levelOf c = 0) ∧ (c = 65535 → levelOf c = 64) ∧ (c = 32768 → levelOf c = 32) ∧
    (tile.countP fun xy => project m c xy.1 xy.2 true == .black) = levelOf c

/-! ### The boolean source modes -/

/-- 41_boolean_transfer_alu.md R130. -/
def Obligations.SrcCopyResult : Prop :=
  (∀ p : OverlapPolicy, decode p 0x00000000 = .ok .srcCopy) ∧
  ∀ s : State, SourceMode .srcCopy s s.ports.fg s.ports.bg (weighted s.ports.bg s.ports.fg (coverage s))

/-- 41_boolean_transfer_alu.md R131. -/
def Obligations.SrcOrResult : Prop :=
  (∀ p : OverlapPolicy, decode p 0x00000001 = .ok .srcOr) ∧
  ∀ s : State, SourceMode .srcOr s s.ports.fg s.ports.dstPix (weighted s.ports.dstPix s.ports.fg (coverage s))

/-- 41_boolean_transfer_alu.md R132. -/
def Obligations.SrcXorResult : Prop :=
  (∀ p : OverlapPolicy, decode p 0x00000002 = .ok .srcXor) ∧
  ∀ s : State, SourceXorMode .srcXor s 1

/-- 41_boolean_transfer_alu.md R133. -/
def Obligations.SrcBicResult : Prop :=
  (∀ p : OverlapPolicy, decode p 0x00000003 = .ok .srcBic) ∧
  ∀ s : State, SourceMode .srcBic s s.ports.bg s.ports.dstPix (weighted s.ports.dstPix s.ports.bg (coverage s))

/-- 41_boolean_transfer_alu.md R134. -/
def Obligations.NotSrcCopyResult : Prop :=
  (∀ p : OverlapPolicy, decode p 0x00000004 = .ok .notSrcCopy) ∧
  ∀ s : State, SourceMode .notSrcCopy s s.ports.bg s.ports.fg (weighted s.ports.fg s.ports.bg (coverage s))

/-- 41_boolean_transfer_alu.md R135. -/
def Obligations.NotSrcOrResult : Prop :=
  (∀ p : OverlapPolicy, decode p 0x00000005 = .ok .notSrcOr) ∧
  ∀ s : State, SourceMode .notSrcOr s s.ports.dstPix s.ports.fg (weighted s.ports.dstPix s.ports.fg (65535 - coverage s))

/-- 41_boolean_transfer_alu.md R136. -/
def Obligations.NotSrcXorResult : Prop :=
  (∀ p : OverlapPolicy, decode p 0x00000006 = .ok .notSrcXor) ∧
  ∀ s : State, SourceXorMode .notSrcXor s 0

/-- 41_boolean_transfer_alu.md R137. -/
def Obligations.NotSrcBicResult : Prop :=
  (∀ p : OverlapPolicy, decode p 0x00000007 = .ok .notSrcBic) ∧
  ∀ s : State, SourceMode .notSrcBic s s.ports.dstPix s.ports.bg (weighted s.ports.dstPix s.ports.bg (65535 - coverage s))

/-! ### The boolean pattern modes -/

/-- 41_boolean_transfer_alu.md R138, R142. -/
def Obligations.PatCopyResults : Prop :=
  (∀ p : OverlapPolicy,
    decode p 0x00000008 = .ok .patCopy ∧ decode p 0x0000000C = .ok .notPatCopy) ∧
  ∀ s : State,
    PatternMode .patCopy s s.ports.fg s.ports.bg ∧ PatternMode .notPatCopy s s.ports.bg s.ports.fg

/-- 41_boolean_transfer_alu.md R139, R143. -/
def Obligations.PatOrResults : Prop :=
  (∀ p : OverlapPolicy,
    decode p 0x00000009 = .ok .patOr ∧ decode p 0x0000000D = .ok .notPatOr) ∧
  ∀ s : State,
    PatternMode .patOr s s.ports.fg s.ports.dstPix ∧ PatternMode .notPatOr s s.ports.dstPix s.ports.fg

/-- 41_boolean_transfer_alu.md R140, R144. -/
def Obligations.PatXorResults : Prop :=
  (∀ p : OverlapPolicy,
    decode p 0x0000000A = .ok .patXor ∧ decode p 0x0000000E = .ok .notPatXor) ∧
  ∀ s : State, PatternXorMode .patXor s true ∧ PatternXorMode .notPatXor s false

/-- 41_boolean_transfer_alu.md R141, R145. -/
def Obligations.PatBicResults : Prop :=
  (∀ p : OverlapPolicy,
    decode p 0x0000000B = .ok .patBic ∧ decode p 0x0000000F = .ok .notPatBic) ∧
  ∀ s : State,
    PatternMode .patBic s s.ports.bg s.ports.dstPix ∧ PatternMode .notPatBic s s.ports.dstPix s.ports.bg

/-! ### The arithmetic modes -/

/-- 42_arithmetic_blend_unit.md R210: the weighted average on a colour destination, `InvalidWeight` outside [0, 65535], and on a
1-bit destination SRC_COPY, whatever the weight. -/
def Obligations.BlendResult : Prop :=
  (∀ p : OverlapPolicy, decode p 0x00000020 = .ok .blend) ∧
  ∀ s : State,
    (s.ports.dst1bit = 0 → 0 ≤ s.ports.weight.toInt → s.ports.weight.toInt ≤ 65535 →
      exec .blend s = answers s (perChannel
        (fun a d => (a * s.ports.weight.toNat + d * (65535 - s.ports.weight.toNat)) / 65535) s.ports.srcPix s.ports.dstPix)) ∧
    (s.ports.dst1bit = 0 → (s.ports.weight.toInt < 0 ∨ 65535 < s.ports.weight.toInt) → exec .blend s = failsWith s 3) ∧
    (s.ports.dst1bit = 1 → exec .blend s = exec .srcCopy s)

/-- 42_arithmetic_blend_unit.md R211, R213: the clamping modes on a colour destination, and what they revert to. -/
def Obligations.AddPinAndSubPinResults : Prop :=
  (∀ p : OverlapPolicy,
    decode p 0x00000021 = .ok .addPin ∧ decode p 0x00000023 = .ok .subPin) ∧
  ∀ s : State,
    ChannelMode .addPin s (fun a d => min (a + d) 65535) ∧
    ChannelMode .subPin s (fun a d => if a ≤ d then d - a else 0) ∧
    (s.ports.dst1bit = 1 → exec .addPin s = exec .srcBic s ∧ exec .subPin s = exec .srcOr s)

/-- 42_arithmetic_blend_unit.md R212. -/
def Obligations.AddOverResult : Prop :=
  (∀ p : OverlapPolicy, decode p 0x00000022 = .ok .addOver) ∧
  ∀ s : State,
    ChannelMode .addOver s (fun a d => (a + d) % 65536) ∧ (s.ports.dst1bit = 1 → exec .addOver s = exec .srcXor s)

/-- 42_arithmetic_blend_unit.md R216: a negative difference wraps by adding 65536. -/
def Obligations.SubOverResult : Prop :=
  (∀ p : OverlapPolicy, decode p 0x00000026 = .ok .subOver) ∧
  ∀ s : State,
    ChannelMode .subOver s (fun a d => if a ≤ d then d - a else d + 65536 - a) ∧
    (s.ports.dst1bit = 1 → exec .subOver s = exec .srcXor s)

/-- 42_arithmetic_blend_unit.md R214: whole pixels are compared on a colour destination and single bits on a 1-bit one; it never
reverts, and no class is an error. -/
def Obligations.TransparentResult : Prop :=
  (∀ p : OverlapPolicy, decode p 0x00000024 = .ok .transparent) ∧
  ∀ s : State,
    (s.ports.dst1bit = 0 →
      exec .transparent s = answers s (if s.ports.srcPix = s.ports.bg then s.ports.dstPix else s.ports.srcPix)) ∧
    (s.ports.dst1bit = 1 →
      exec .transparent s = answers s
        (if s.ports.srcPix.getLsbD 0 = s.ports.bg.getLsbD 0 then lowBit s.ports.dstPix else lowBit s.ports.srcPix))

/-- 42_arithmetic_blend_unit.md R215, R217. -/
def Obligations.AddMaxAndAddMinResults : Prop :=
  (∀ p : OverlapPolicy,
    decode p 0x00000025 = .ok .addMax ∧ decode p 0x00000027 = .ok .addMin) ∧
  ∀ s : State,
    ChannelMode .addMax s (fun a d => max a d) ∧ ChannelMode .addMin s (fun a d => min a d) ∧
    (s.ports.dst1bit = 1 → exec .addMax s = exec .srcBic s ∧ exec .addMin s = exec .srcOr s)

/-- 42_arithmetic_blend_unit.md R203: the reversion table on a 1-bit destination, errors and responses alike; TRANSPARENT, which
has no entry, answers its own rule there even with the class its neighbours would reject. -/
def Obligations.ReversionTable : Prop :=
  ∀ s : State, s.ports.dst1bit = 1 →
    exec .blend s = exec .srcCopy s ∧ exec .addPin s = exec .srcBic s ∧ exec .addOver s = exec .srcXor s ∧
    exec .subPin s = exec .srcOr s ∧ exec .addMax s = exec .srcBic s ∧ exec .subOver s = exec .srcXor s ∧
    exec .addMin s = exec .srcOr s ∧ ∃ pix, exec .transparent s = answers s pix

/-- The laws of the arithmetic unit on a colour destination: SUB_OVER undoes ADD_OVER, ADD_MAX and ADD_MIN do not mind the order,
and BLEND with w is BLEND with 65535 - w and the pixels exchanged. -/
def Obligations.ArithmeticLaws : Prop :=
  ∀ (S D bk : Pixel) (w : Nat), w ≤ 65535 →
    arithUnit .subOver S (arithUnit .addOver S D bk w) bk w = D ∧
    arithUnit .addMax S D bk w = arithUnit .addMax D S bk w ∧
    arithUnit .addMin S D bk w = arithUnit .addMin D S bk w ∧
    arithUnit .blend S D bk w = arithUnit .blend D S bk (65535 - w)

/-! ### The text-only mode and the modifiers -/

/-- 43_dither_and_modifiers.md R234, R236. -/
def Obligations.GrayishTextResult : Prop :=
  (∀ p : OverlapPolicy,
    decode p 0x00000031 = .ok .grayishText) ∧
  (∀ xi yi : BitVec 3, textBit xi yi = 1 ↔ (xi.toNat + yi.toNat) % 2 = 0) ∧
  ∀ s : State,
    (s.ports.srcClass = 3 → exec .grayishText s = failsWith s 4) ∧
    (s.ports.dst1bit = 0 →
      (s.ports.srcClass = 1 →
        exec .grayishText s = answers s (perChannel (fun f b => (f + b) / 2) s.ports.fg s.ports.bg)) ∧
      (s.ports.srcClass = 0 → exec .grayishText s = answers s s.ports.dstPix) ∧
      (s.ports.srcClass = 2 →
        exec .grayishText s = answers s
          (weighted s.ports.dstPix (perChannel (fun f b => (f + b) / 2) s.ports.fg s.ports.bg) (coverage s)))) ∧
    (s.ports.dst1bit = 1 →
      (s.ports.srcClass = 1 ∨ s.ports.srcClass = 2 ∧ 32768 ≤ coverage s →
        exec .grayishText s = answers s
          (if (s.ports.x.toNat + s.ports.y.toNat) % 2 = 0 then lowBit s.ports.fg else lowBit s.ports.dstPix)) ∧
      (s.ports.srcClass = 0 ∨ s.ports.srcClass = 2 ∧ coverage s < 32768 →
        exec .grayishText s = answers s (lowBit s.ports.dstPix)))

/-- 43_dither_and_modifiers.md R235: a highlighted mode answers what its base mode answers with fg and bg exchanged. -/
def Obligations.HighlightExchangesColours : Prop :=
  ∀ (o : BoolOperand) (inv : Bool) (fam : Family) (s : State), ∃ r : Response,
    exec (instrOfMode (.bool o inv fam .hilite)) s = .next { s with rsp := some r } ∧
    exec (instrOfMode (.bool o inv fam .none)) { s with ports := { s.ports with fg := s.ports.bg, bg := s.ports.fg } } =
      .next { s with ports := { s.ports with fg := s.ports.bg, bg := s.ports.fg }, rsp := some r }

/-- 43_dither_and_modifiers.md R240 to R247. -/
def Obligations.HighlightSourceResults : Prop :=
  (∀ p : OverlapPolicy,
    decode p 0x00000032 = .ok .hiliteSrcCopy ∧ decode p 0x00000033 = .ok .hiliteSrcOr ∧
    decode p 0x00000034 = .ok .hiliteSrcXor ∧ decode p 0x00000035 = .ok .hiliteSrcBic ∧
    decode p 0x00000036 = .ok .hiliteNotSrcCopy ∧ decode p 0x00000037 = .ok .hiliteNotSrcOr ∧
    decode p 0x00000038 = .ok .hiliteNotSrcXor ∧ decode p 0x00000039 = .ok .hiliteNotSrcBic) ∧
  ∀ s : State,
    SourceMode .hiliteSrcCopy s s.ports.bg s.ports.fg (weighted s.ports.fg s.ports.bg (coverage s)) ∧
    SourceMode .hiliteSrcOr s s.ports.bg s.ports.dstPix (weighted s.ports.dstPix s.ports.bg (coverage s)) ∧
    SourceXorMode .hiliteSrcXor s 1 ∧
    SourceMode .hiliteSrcBic s s.ports.fg s.ports.dstPix (weighted s.ports.dstPix s.ports.fg (coverage s)) ∧
    SourceMode .hiliteNotSrcCopy s s.ports.fg s.ports.bg (weighted s.ports.bg s.ports.fg (coverage s)) ∧
    SourceMode .hiliteNotSrcOr s s.ports.dstPix s.ports.bg (weighted s.ports.dstPix s.ports.bg (65535 - coverage s)) ∧
    SourceXorMode .hiliteNotSrcXor s 0 ∧
    SourceMode .hiliteNotSrcBic s s.ports.dstPix s.ports.fg (weighted s.ports.dstPix s.ports.fg (65535 - coverage s))

/-- 43_dither_and_modifiers.md R248 to R255: the results, and under which policy the last two have a code. -/
def Obligations.HighlightPatternResults : Prop :=
  (∀ p : OverlapPolicy,
    decode p 0x0000003A = .ok .hilitePatCopy ∧ decode p 0x0000003B = .ok .hilitePatOr ∧
    decode p 0x0000003C = .ok .hilitePatXor ∧ decode p 0x0000003D = .ok .hilitePatBic ∧
    decode p 0x0000003E = .ok .hiliteNotPatCopy ∧ decode p 0x0000003F = .ok .hiliteNotPatOr) ∧
  (∀ s : State,
    PatternMode .hilitePatCopy s s.ports.bg s.ports.fg ∧ PatternMode .hilitePatOr s s.ports.bg s.ports.dstPix ∧
    PatternXorMode .hilitePatXor s true ∧ PatternMode .hilitePatBic s s.ports.fg s.ports.dstPix ∧
    PatternMode .hiliteNotPatCopy s s.ports.fg s.ports.bg ∧ PatternMode .hiliteNotPatOr s s.ports.dstPix s.ports.bg ∧
    PatternXorMode .hiliteNotPatXor s false ∧ PatternMode .hiliteNotPatBic s s.ports.dstPix s.ports.fg) ∧
  (∀ (p : OverlapPolicy) (w : Word), (decode p w = .ok .hiliteNotPatXor ↔ p = .hiliteFirst ∧ w = 0x40) ∧
    (decode p w = .ok .hiliteNotPatBic ↔ p = .hiliteFirst ∧ w = 0x41))

/-- 43_dither_and_modifiers.md R233: the dither modifier changes nothing on a colour destination, for a BLACK or WHITE operand
(or the reserved class), for a pattern mode or for family XOR; where the base mode projects, the dithered mode answers what the
plain mode answers for the class that the dither threshold gives. -/
def Obligations.DitherModifierResult : Prop :=
  ∀ (o : BoolOperand) (inv : Bool) (fam : Family) (s : State),
    ((s.ports.dst1bit = 0 ∨ s.ports.srcClass ≠ 2 ∨ o = .pattern ∨ fam = .xor) →
      exec (instrOfMode (.bool o inv fam .dither)) s = exec (instrOfMode (.bool o inv fam .none)) s) ∧
    (s.ports.dst1bit = 1 → s.ports.srcClass = 2 → o = .source → fam ≠ .xor →
      ∃ (r : Response) (q : Ports),
        q = { s.ports with
          srcClass := if ditherEntry s < levelOf (if inv then 65535 - coverage s else coverage s) then 1 else 0 } ∧
        exec (instrOfMode (.bool o inv fam .dither)) s = .next { s with rsp := some r } ∧
        exec (instrOfMode (.bool o false fam .none)) { s with ports := q } = .next { s with ports := q, rsp := some r })

/-- 43_dither_and_modifiers.md R260 to R267: the results, and under which policy the first two have a code. -/
def Obligations.DitherSourceResults : Prop :=
  (∀ p : OverlapPolicy,
    decode p 0x00000042 = .ok .ditherSrcXor ∧ decode p 0x00000043 = .ok .ditherSrcBic ∧
    decode p 0x00000044 = .ok .ditherNotSrcCopy ∧ decode p 0x00000045 = .ok .ditherNotSrcOr ∧
    decode p 0x00000046 = .ok .ditherNotSrcXor ∧ decode p 0x00000047 = .ok .ditherNotSrcBic) ∧
  (∀ s : State,
    DitheredMode .ditherSrcCopy s s.ports.fg s.ports.bg (weighted s.ports.bg s.ports.fg (coverage s))
      (coverage s) s.ports.fg s.ports.bg ∧
    DitheredMode .ditherSrcOr s s.ports.fg s.ports.dstPix (weighted s.ports.dstPix s.ports.fg (coverage s))
      (coverage s) s.ports.fg s.ports.dstPix ∧
    SourceXorMode .ditherSrcXor s 1 ∧
    DitheredMode .ditherSrcBic s s.ports.bg s.ports.dstPix (weighted s.ports.dstPix s.ports.bg (coverage s))
      (coverage s) s.ports.bg s.ports.dstPix ∧
    DitheredMode .ditherNotSrcCopy s s.ports.bg s.ports.fg (weighted s.ports.fg s.ports.bg (coverage s))
      (65535 - coverage s) s.ports.fg s.ports.bg ∧
    DitheredMode .ditherNotSrcOr s s.ports.dstPix s.ports.fg (weighted s.ports.dstPix s.ports.fg (65535 - coverage s))
      (65535 - coverage s) s.ports.fg s.ports.dstPix ∧
    SourceXorMode .ditherNotSrcXor s 0 ∧
    DitheredMode .ditherNotSrcBic s s.ports.dstPix s.ports.bg (weighted s.ports.dstPix s.ports.bg (65535 - coverage s))
      (65535 - coverage s) s.ports.bg s.ports.dstPix) ∧
  (∀ (p : OverlapPolicy) (w : Word), (decode p w = .ok .ditherSrcCopy ↔ p = .ditherFirst ∧ w = 0x40) ∧
    (decode p w = .ok .ditherSrcOr ↔ p = .ditherFirst ∧ w = 0x41))

/-- 43_dither_and_modifiers.md R268 to R275. -/
def Obligations.DitherPatternResults : Prop :=
  (∀ p : OverlapPolicy,
    decode p 0x00000048 = .ok .ditherPatCopy ∧ decode p 0x00000049 = .ok .ditherPatOr ∧
    decode p 0x0000004A = .ok .ditherPatXor ∧ decode p 0x0000004B = .ok .ditherPatBic ∧
    decode p 0x0000004C = .ok .ditherNotPatCopy ∧ decode p 0x0000004D = .ok .ditherNotPatOr ∧
    decode p 0x0000004E = .ok .ditherNotPatXor ∧ decode p 0x0000004F = .ok .ditherNotPatBic) ∧
  ∀ s : State,
    PatternMode .ditherPatCopy s s.ports.fg s.ports.bg ∧ PatternMode .ditherPatOr s s.ports.fg s.ports.dstPix ∧
    PatternXorMode .ditherPatXor s true ∧ PatternMode .ditherPatBic s s.ports.bg s.ports.dstPix ∧
    PatternMode .ditherNotPatCopy s s.ports.bg s.ports.fg ∧ PatternMode .ditherNotPatOr s s.ports.dstPix s.ports.fg ∧
    PatternXorMode .ditherNotPatXor s false ∧ PatternMode .ditherNotPatBic s s.ports.dstPix s.ports.bg

/-! ### The pattern commands -/

/-- 44_pattern_tile_lut.md R310. -/
def Obligations.LdpatSeedResult : Prop :=
  (∀ p : OverlapPolicy, decode p 0x20000000 = .ok .ldpatSeed) ∧
  ∀ s : State, exec .ldpatSeed s = answers { s with pat := s.ports.arg ++ s.ports.arg } s.ports.dstPix

/-- 44_pattern_tile_lut.md R306, R311: every cell of the loaded pattern equals `arg[0]`. -/
def Obligations.LdpatSolidResult : Prop :=
  (∀ p : OverlapPolicy, decode p 0x40000000 = .ok .ldpatSolid) ∧
  ∀ s : State,
    (s.ports.arg.getLsbD 0 = true → exec .ldpatSolid s = answers { s with pat := 0xFFFFFFFFFFFFFFFF } s.ports.dstPix) ∧
    (s.ports.arg.getLsbD 0 = false → exec .ldpatSolid s = answers { s with pat := 0x0000000000000000 } s.ports.dstPix)

/-- 44_pattern_tile_lut.md R305, R312. -/
def Obligations.LdpatPresetResult : Prop :=
  (∀ p : OverlapPolicy, decode p 0x60000000 = .ok .ldpatPreset) ∧
  ∀ s : State,
    (s.ports.arg = 0 → exec .ldpatPreset s = answers { s with pat := 0x0000000000000000 } s.ports.dstPix) ∧
    (s.ports.arg = 1 → exec .ldpatPreset s = answers { s with pat := 0xFFFFFFFFFFFFFFFF } s.ports.dstPix) ∧
    (s.ports.arg = 2 → exec .ldpatPreset s = answers { s with pat := 0xAA55AA55AA55AA55 } s.ports.dstPix) ∧
    (s.ports.arg = 3 → exec .ldpatPreset s = answers { s with pat := 0x8822882288228822 } s.ports.dstPix) ∧
    (s.ports.arg = 4 → exec .ldpatPreset s = answers { s with pat := 0x77DD77DD77DD77DD } s.ports.dstPix) ∧
    (4 < s.ports.arg.toNat → exec .ldpatPreset s = failsWith s 5)

/-- 44_pattern_tile_lut.md R313: the pattern bit at (x, y) on `rsp.bit`, and `PAT` is kept. -/
def Obligations.SampleResult : Prop :=
  (∀ p : OverlapPolicy, decode p 0x80000000 = .ok .sample) ∧
  ∀ s : State, exec .sample s =
    .next { s with rsp := some { pix := s.ports.dstPix, bit := if tileBit s then 1 else 0, status := 0 } }
end

