-- ==== Sys2Proof/Laws/State.lean ====
section
/-! SUPPORT. One lemma per field per update of the state, so that no later proof unfolds a record update. There is no memory
(20_memory.md R50), so there is no memory law. -/

namespace Sys2Proof.Machine

/-! ### writePat -/

@[simp] theorem writePat_pat (g : Grid) (s : State) :
    (writePat g s).pat = g := rfl
@[simp] theorem writePat_ports (g : Grid) (s : State) :
    (writePat g s).ports = s.ports := rfl
@[simp] theorem writePat_rsp (g : Grid) (s : State) :
    (writePat g s).rsp = s.rsp := rfl
@[simp] theorem writePat_script (g : Grid) (s : State) :
    (writePat g s).script = s.script := rfl
@[simp] theorem writePat_draws (g : Grid) (s : State) :
    (writePat g s).draws = s.draws := rfl
@[simp] theorem writePat_cfg (g : Grid) (s : State) :
    (writePat g s).cfg = s.cfg := rfl

/-! ### driveOk -/

@[simp] theorem driveOk_pat (pix : Pixel) (bit : Bit) (s : State) :
    (driveOk pix bit s).pat = s.pat := rfl
@[simp] theorem driveOk_ports (pix : Pixel) (bit : Bit) (s : State) :
    (driveOk pix bit s).ports = s.ports := rfl
@[simp] theorem driveOk_rsp (pix : Pixel) (bit : Bit) (s : State) :
    (driveOk pix bit s).rsp = some { pix := pix, bit := bit, status := statusOk } := rfl
@[simp] theorem driveOk_script (pix : Pixel) (bit : Bit) (s : State) :
    (driveOk pix bit s).script = s.script := rfl
@[simp] theorem driveOk_draws (pix : Pixel) (bit : Bit) (s : State) :
    (driveOk pix bit s).draws = s.draws := rfl
@[simp] theorem driveOk_cfg (pix : Pixel) (bit : Bit) (s : State) :
    (driveOk pix bit s).cfg = s.cfg := rfl

/-! ### raise -/

@[simp] theorem raise_pat (e : ErrorKind) (s : State) :
    (raise e s).pat = s.pat := rfl
@[simp] theorem raise_ports (e : ErrorKind) (s : State) :
    (raise e s).ports = s.ports := rfl
@[simp] theorem raise_rsp (e : ErrorKind) (s : State) :
    (raise e s).rsp = some { pix := s.ports.dstPix, bit := 0, status := errorCode e } := rfl
@[simp] theorem raise_script (e : ErrorKind) (s : State) :
    (raise e s).script = s.script := rfl
@[simp] theorem raise_draws (e : ErrorKind) (s : State) :
    (raise e s).draws = s.draws := rfl
@[simp] theorem raise_cfg (e : ErrorKind) (s : State) :
    (raise e s).cfg = s.cfg := rfl

/-! ### present -/

@[simp] theorem present_pat (q : Ports) (rest : List HostEvent) (s : State) :
    (present q rest s).pat = s.pat := rfl
@[simp] theorem present_ports (q : Ports) (rest : List HostEvent) (s : State) :
    (present q rest s).ports = q := rfl
@[simp] theorem present_rsp (q : Ports) (rest : List HostEvent) (s : State) :
    (present q rest s).rsp = none := rfl
@[simp] theorem present_script (q : Ports) (rest : List HostEvent) (s : State) :
    (present q rest s).script = rest := rfl
@[simp] theorem present_draws (q : Ports) (rest : List HostEvent) (s : State) :
    (present q rest s).draws = s.draws := rfl
@[simp] theorem present_cfg (q : Ports) (rest : List HostEvent) (s : State) :
    (present q rest s).cfg = s.cfg := rfl

/-! ### takeReset -/

@[simp] theorem takeReset_pat (rest : List HostEvent) (s : State) :
    (takeReset rest s).pat = Config.patReset s.draws := rfl
@[simp] theorem takeReset_ports (rest : List HostEvent) (s : State) :
    (takeReset rest s).ports = s.ports := rfl
@[simp] theorem takeReset_rsp (rest : List HostEvent) (s : State) :
    (takeReset rest s).rsp = none := rfl
@[simp] theorem takeReset_script (rest : List HostEvent) (s : State) :
    (takeReset rest s).script = rest := rfl
@[simp] theorem takeReset_draws (rest : List HostEvent) (s : State) :
    (takeReset rest s).draws = s.draws + 1 := rfl
@[simp] theorem takeReset_cfg (rest : List HostEvent) (s : State) :
    (takeReset rest s).cfg = s.cfg := rfl

/-! ### idle -/

@[simp] theorem idle_pat (s : State) :
    (idle s).pat = s.pat := rfl
@[simp] theorem idle_ports (s : State) :
    (idle s).ports = s.ports := rfl
@[simp] theorem idle_rsp (s : State) :
    (idle s).rsp = none := rfl
@[simp] theorem idle_script (s : State) :
    (idle s).script = s.script := rfl
@[simp] theorem idle_draws (s : State) :
    (idle s).draws = s.draws := rfl
@[simp] theorem idle_cfg (s : State) :
    (idle s).cfg = s.cfg := rfl

/-! ### pushCommand -/

@[simp] theorem pushCommand_pat (q : Ports) (s : State) :
    (pushCommand q s).pat = s.pat := rfl
@[simp] theorem pushCommand_ports (q : Ports) (s : State) :
    (pushCommand q s).ports = s.ports := rfl
@[simp] theorem pushCommand_rsp (q : Ports) (s : State) :
    (pushCommand q s).rsp = s.rsp := rfl
@[simp] theorem pushCommand_script (q : Ports) (s : State) :
    (pushCommand q s).script = .command q :: s.script := rfl
@[simp] theorem pushCommand_draws (q : Ports) (s : State) :
    (pushCommand q s).draws = s.draws := rfl
@[simp] theorem pushCommand_cfg (q : Ports) (s : State) :
    (pushCommand q s).cfg = s.cfg := rfl

/-! ### the state after reset -/

@[simp] theorem afterReset_pat (c : Params) (n : Nat) :
    (State.afterReset c n).pat = Config.patReset n := rfl
@[simp] theorem afterReset_ports (c : Params) (n : Nat) :
    (State.afterReset c n).ports = .zero := rfl
@[simp] theorem afterReset_rsp (c : Params) (n : Nat) :
    (State.afterReset c n).rsp = none := rfl
@[simp] theorem afterReset_script (c : Params) (n : Nat) :
    (State.afterReset c n).script = [] := rfl
@[simp] theorem afterReset_draws (c : Params) (n : Nat) :
    (State.afterReset c n).draws = n + 1 := rfl
@[simp] theorem afterReset_cfg (c : Params) (n : Nat) :
    (State.afterReset c n).cfg = c := rfl

end Sys2Proof.Machine
end

