-- ==== Sys2Proof/Laws/Words.lean ====
section
/-! SUPPORT. The decoder and the mode map. -/

namespace Sys2Proof

/-- A COMPOSITE instruction names the mode it was made from (30_encoding.md R81). -/
@[simp] theorem mode_instrOfMode (md : Mode) : (instrOfMode md).mode = some md := by
  rcases md with ⟨o, inv, fam, mod⟩ | aop | _
  · cases o <;> cases inv <;> cases fam <;> cases mod <;> rfl
  · cases aop <;> rfl
  · rfl

/-- An instruction that names a mode is the one made from it. -/
theorem instrOfMode_of_mode {i : Instr} {md : Mode} (h : i.mode = some md) : instrOfMode md = i := by
  cases i <;> cases h <;> rfl

theorem cmdField_toNat (w : Word) : (cmdField w).toNat = w.toNat / 2 ^ 29 := by
  have := w.isLt
  simp only [cmdField, BitVec.extractLsb'_toNat, Nat.shiftRight_eq_div_pow]
  omega

theorem rsvField_toNat (w : Word) : (rsvField w).toNat = w.toNat / 2 ^ 16 % 2 ^ 13 := by
  simp only [rsvField, BitVec.extractLsb'_toNat, Nat.shiftRight_eq_div_pow]

theorem modeField_toNat (w : Word) : (modeField w).toNat = w.toNat % 2 ^ 16 := by
  simp only [modeField, BitVec.extractLsb'_toNat, Nat.shiftRight_zero]

/-- With its reserved and command fields at zero a word is its mode code (30_encoding.md R86). -/
theorem word_eq_mode {w : Word} (hr : rsvField w = 0) (hc : cmdField w = 0) : w = BitVec.ofNat 32 (modeField w).toNat := by
  have h1 := rsvField_toNat w
  have h2 := cmdField_toNat w
  have h3 := w.isLt
  rw [hr] at h1
  rw [hc] at h2
  apply BitVec.eq_of_toNat_eq
  rw [modeField_toNat, BitVec.toNat_ofNat]
  simp only [BitVec.ofNat_eq_ofNat, BitVec.toNat_ofNat, Nat.zero_mod] at h1 h2
  omega

/-- No code above 79 decodes (30_encoding.md R82). -/
theorem decodeMode_le {p : OverlapPolicy} {m : Nat} {md : Mode} (h : decodeMode p m = some md) : m ≤ 79 := by
  unfold decodeMode at h
  repeat' split at h
  all_goals first | omega | cases h

/-- Everything the decoder can answer (30_encoding.md R71, R72, R81, R84). -/
theorem decode_cases (p : OverlapPolicy) (cw : Word) :
    (rsvField cw ≠ 0 ∧ decode p cw = .error .illegalCommand) ∨
    (rsvField cw = 0 ∧ cmdField cw = 0 ∧ ∃ md, decodeMode p (modeField cw).toNat = some md ∧ decode p cw = .ok (instrOfMode md)) ∨
    (rsvField cw = 0 ∧ cmdField cw = 0 ∧ decodeMode p (modeField cw).toNat = none ∧ decode p cw = .error .unsupportedMode) ∨
    (rsvField cw = 0 ∧ cmdField cw = 1 ∧ decode p cw = .ok .ldpatSeed) ∨
    (rsvField cw = 0 ∧ cmdField cw = 2 ∧ decode p cw = .ok .ldpatSolid) ∨
    (rsvField cw = 0 ∧ cmdField cw = 3 ∧ decode p cw = .ok .ldpatPreset) ∨
    (rsvField cw = 0 ∧ cmdField cw = 4 ∧ decode p cw = .ok .sample) ∨
    (rsvField cw = 0 ∧ 5 ≤ (cmdField cw).toNat ∧ decode p cw = .error .illegalCommand) := by
  by_cases hr : rsvField cw = 0
  · have hc : ∀ c : BitVec 3, c = 0 ∨ c = 1 ∨ c = 2 ∨ c = 3 ∨ c = 4 ∨ c = 5 ∨ c = 6 ∨ c = 7 := by decide
    rcases hc (cmdField cw) with h | h | h | h | h | h | h | h
    · cases hm : decodeMode p (modeField cw).toNat <;> simp [decode, hr, h, hm]
    all_goals simp [decode, hr, h]
  · exact .inl ⟨hr, by rw [decode, if_pos hr]⟩

end Sys2Proof
end

