-- ==== Sys2Proof/Laws/Exec.lean ====
section
/-! SUPPORT. What a COMPOSITE, an instruction and a step can do, each said once. -/

namespace Sys2Proof.Machine

/-- Everything a COMPOSITE can do: answer a pixel, or the error response (40_mode_selector_mux.md R100, R109). -/
theorem composite_cases (md : Mode) (s : State) :
    (∃ r, compositePixel md s = .ok r ∧ composite md s = .next (driveOk (inFormat (oneBit s) r) 0 s)) ∨
    (∃ e, compositePixel md s = .error e ∧ composite md s = .next (raise e s)) := by
  cases h : compositePixel md s <;> simp [composite, h]

/-- A boolean mode never reverts (40_mode_selector_mux.md R102). -/
@[simp] theorem compositePixel_bool (o : BoolOperand) (inv : Bool) (fam : Family) (mod : Modifier) (s : State) :
    compositePixel (.bool o inv fam mod) s = boolPixel o inv fam mod s := rfl

@[simp] theorem compositePixel_text (s : State) : compositePixel .text s = textPixel s := rfl

/-- On a colour destination no arithmetic mode reverts (40_mode_selector_mux.md R102). -/
theorem compositePixel_arith_colour {s : State} (h : oneBit s = false) (aop : ArithOp) :
    compositePixel (.arith aop) s = arithPixel aop s := by
  cases aop <;> simp [compositePixel, revertMode, h]

/-- On a 1-bit destination an arithmetic mode runs as the boolean source mode of its entry, and TRANSPARENT as itself
(42_arithmetic_blend_unit.md R203). -/
theorem compositePixel_arith_oneBit {s : State} (h : oneBit s = true) (aop : ArithOp) :
    compositePixel (.arith aop) s =
      match revertFamily aop with
      | some fam => boolPixel .source false fam .none s
      | none => arithPixel aop s := by
  cases aop <;> simp [compositePixel, revertMode, revertFamily, h]

/-- The result of a COMPOSITE depends on the ports, the parameters and, for a pattern mode, `PAT` (10_state.md R33,
44_pattern_tile_lut.md R314). -/
theorem compositePixel_congr {s u : State} {md : Mode} (hq : s.ports = u.ports) (hc : s.cfg = u.cfg)
    (hp : s.pat = u.pat ∨ md.category ≠ .boolPat) : compositePixel md s = compositePixel md u := by
  have h1 : oneBit s = oneBit u := by simp only [oneBit, hq]
  obtain ⟨pat, ports, _, _, _, cfg⟩ := s
  obtain ⟨pat', ports', _, _, _, cfg'⟩ := u
  cases hq
  cases hc
  rcases hp with hp | hp
  · cases hp; rfl
  · rcases md with ⟨_ | _, inv, fam, mod⟩ | aop | _
    · rfl
    · exact absurd rfl hp
    · rcases Bool.eq_false_or_eq_true (oneBit ⟨pat', ports, _, _, _, cfg⟩) with h | h
      · rw [compositePixel_arith_oneBit (h1.trans h), compositePixel_arith_oneBit h]; rfl
      · rw [compositePixel_arith_colour (h1.trans h), compositePixel_arith_colour h]; rfl
    · rfl

/-- The errors a COMPOSITE can raise after its decode (40_mode_selector_mux.md R100). -/
theorem compositePixel_error {md : Mode} {s : State} {e : ErrorKind} (h : compositePixel md s = .error e) :
    e = .invalidOperand ∨ e = .undefinedOperation ∨ e = .invalidWeight := by
  unfold compositePixel at h
  split at h
  · unfold boolPixel at h
    split at h
    · exact .inl (by cases h; rfl)
    · split at h <;> cases h
      exact .inr (.inl rfl)
  · unfold arithPixel at h
    split at h <;> cases h
    exact .inr (.inr rfl)
  · unfold textPixel at h
    split at h <;> cases h
    exact .inl rfl

/-- The meaning of an instruction that names a mode is COMPOSITE of that mode (40_mode_selector_mux.md R100). -/
theorem exec_of_mode {i : Instr} {md : Mode} (h : i.mode = some md) (s : State) : exec i s = composite md s := by
  cases i <;> cases h <;> rfl

/-- The presets, by index: exactly 0 to 4 have one (44_pattern_tile_lut.md R305, R312). -/
theorem presetPat_isSome (index : Word) : (presetPat index).isSome = true ↔ index.toNat ≤ 4 := by
  unfold presetPat
  rcases index.toNat with _ | _ | _ | _ | _ | n <;> simp

/-- Everything an instruction can do: it always ends with a next state, which differs from the one before in the response and,
for a pattern load, in `PAT` (10_state.md R25, 60_exceptions.md R402, R406). -/
theorem exec_cases (i : Instr) (s : State) :
    (∃ md r, i.mode = some md ∧ compositePixel md s = .ok r ∧ exec i s = .next (driveOk (inFormat (oneBit s) r) 0 s)) ∨
    (∃ e, exec i s = .next (raise e s)) ∨
    (∃ g, i.mode = none ∧ i ≠ .sample ∧ exec i s = .next (driveOk s.ports.dstPix 0 (writePat g s))) ∨
    (i = .sample ∧ exec i s = .next (driveOk s.ports.dstPix (patSample s.pat s.ports.x s.ports.y) s)) := by
  cases hm : i.mode with
  | some md =>
    rcases composite_cases md s with ⟨r, hr, hn⟩ | ⟨e, _, hn⟩
    · exact .inl ⟨md, r, rfl, hr, by rw [exec_of_mode hm, hn]⟩
    · exact .inr (.inl ⟨e, by rw [exec_of_mode hm, hn]⟩)
  | none =>
    cases i <;> cases hm
    · exact .inr (.inr (.inl ⟨_, rfl, by decide, rfl⟩))
    · exact .inr (.inr (.inl ⟨_, rfl, by decide, rfl⟩))
    · cases hp : presetPat s.ports.arg with
      | some g => exact .inr (.inr (.inl ⟨g, rfl, by decide, by simp [exec, execLdpatPreset, hp]⟩))
      | none => exact .inr (.inl ⟨.invalidPreset, by simp [exec, execLdpatPreset, hp]⟩)
    · exact .inr (.inr (.inr ⟨rfl, rfl⟩))

/-- Everything a step can do (70_reset_and_hazards.md R501, R504, 60_exceptions.md R413). -/
theorem step_cases (s : State) :
    (s.script = [] ∧ step s = .next (idle s)) ∨
    (∃ rest, s.script = .reset :: rest ∧ step s = .next (takeReset rest s)) ∨
    (∃ q rest i, s.script = .command q :: rest ∧ decode s.cfg.overlap q.cw = .ok i ∧
      step s = exec i (present q rest s)) ∨
    (∃ q rest e, s.script = .command q :: rest ∧ decode s.cfg.overlap q.cw = .error e ∧
      step s = .next (raise e (present q rest s))) := by
  rcases hs : s.script with _ | ⟨q | _, rest⟩
  · exact .inl ⟨rfl, by simp [step, hs]⟩
  · refine .inr (.inr ?_)
    cases hd : decode s.cfg.overlap q.cw with
    | ok i => exact .inl ⟨q, rest, i, rfl, hd, by simp [step, hs, runPresented, hd]⟩
    | error e => exact .inr ⟨q, rest, e, rfl, hd, by simp [step, hs, runPresented, hd]⟩
  · exact .inr (.inl ⟨rest, rfl, by simp [step, hs]⟩)

/-- No step writes the parameters (00_scope.md R8). -/
theorem exec_cfg {i : Instr} {s t : State} (h : exec i s = .next t) : t.cfg = s.cfg ∧ t.draws = s.draws ∧ t.ports = s.ports ∧ t.script = s.script := by
  rcases exec_cases i s with ⟨_, _, _, _, hn⟩ | ⟨_, hn⟩ | ⟨_, _, _, hn⟩ | ⟨_, hn⟩ <;> rw [hn] at h <;> cases h <;>
    exact ⟨rfl, rfl, rfl, rfl⟩

end Sys2Proof.Machine
end

