-- ==== Sys2Proof/Laws/PerInstr.lean ====
section
/-! SUPPORT. Statements about every instruction as syntax, one lemma per constructor. -/

namespace Sys2Proof.Laws.WordForm

/-- The word of an instruction has its reserved field at zero and one of the five commands (30_encoding.md R71, R72), and it is a
COMPOSITE exactly when the instruction names a mode. -/
def Statement (i : Instr) : Prop :=
  rsvField (encode i) = 0 ∧ cmdField (encode i) < 5 ∧ (cmdField (encode i) = 0 ↔ i.mode.isSome = true)

theorem srcCopy : Statement .srcCopy := by unfold Statement; decide
theorem srcOr : Statement .srcOr := by unfold Statement; decide
theorem srcXor : Statement .srcXor := by unfold Statement; decide
theorem srcBic : Statement .srcBic := by unfold Statement; decide
theorem notSrcCopy : Statement .notSrcCopy := by unfold Statement; decide
theorem notSrcOr : Statement .notSrcOr := by unfold Statement; decide
theorem notSrcXor : Statement .notSrcXor := by unfold Statement; decide
theorem notSrcBic : Statement .notSrcBic := by unfold Statement; decide
theorem patCopy : Statement .patCopy := by unfold Statement; decide
theorem patOr : Statement .patOr := by unfold Statement; decide
theorem patXor : Statement .patXor := by unfold Statement; decide
theorem patBic : Statement .patBic := by unfold Statement; decide
theorem notPatCopy : Statement .notPatCopy := by unfold Statement; decide
theorem notPatOr : Statement .notPatOr := by unfold Statement; decide
theorem notPatXor : Statement .notPatXor := by unfold Statement; decide
theorem notPatBic : Statement .notPatBic := by unfold Statement; decide
theorem blend : Statement .blend := by unfold Statement; decide
theorem addPin : Statement .addPin := by unfold Statement; decide
theorem addOver : Statement .addOver := by unfold Statement; decide
theorem subPin : Statement .subPin := by unfold Statement; decide
theorem transparent : Statement .transparent := by unfold Statement; decide
theorem addMax : Statement .addMax := by unfold Statement; decide
theorem subOver : Statement .subOver := by unfold Statement; decide
theorem addMin : Statement .addMin := by unfold Statement; decide
theorem grayishText : Statement .grayishText := by unfold Statement; decide
theorem hiliteSrcCopy : Statement .hiliteSrcCopy := by unfold Statement; decide
theorem hiliteSrcOr : Statement .hiliteSrcOr := by unfold Statement; decide
theorem hiliteSrcXor : Statement .hiliteSrcXor := by unfold Statement; decide
theorem hiliteSrcBic : Statement .hiliteSrcBic := by unfold Statement; decide
theorem hiliteNotSrcCopy : Statement .hiliteNotSrcCopy := by unfold Statement; decide
theorem hiliteNotSrcOr : Statement .hiliteNotSrcOr := by unfold Statement; decide
theorem hiliteNotSrcXor : Statement .hiliteNotSrcXor := by unfold Statement; decide
theorem hiliteNotSrcBic : Statement .hiliteNotSrcBic := by unfold Statement; decide
theorem hilitePatCopy : Statement .hilitePatCopy := by unfold Statement; decide
theorem hilitePatOr : Statement .hilitePatOr := by unfold Statement; decide
theorem hilitePatXor : Statement .hilitePatXor := by unfold Statement; decide
theorem hilitePatBic : Statement .hilitePatBic := by unfold Statement; decide
theorem hiliteNotPatCopy : Statement .hiliteNotPatCopy := by unfold Statement; decide
theorem hiliteNotPatOr : Statement .hiliteNotPatOr := by unfold Statement; decide
theorem hiliteNotPatXor : Statement .hiliteNotPatXor := by unfold Statement; decide
theorem hiliteNotPatBic : Statement .hiliteNotPatBic := by unfold Statement; decide
theorem ditherSrcCopy : Statement .ditherSrcCopy := by unfold Statement; decide
theorem ditherSrcOr : Statement .ditherSrcOr := by unfold Statement; decide
theorem ditherSrcXor : Statement .ditherSrcXor := by unfold Statement; decide
theorem ditherSrcBic : Statement .ditherSrcBic := by unfold Statement; decide
theorem ditherNotSrcCopy : Statement .ditherNotSrcCopy := by unfold Statement; decide
theorem ditherNotSrcOr : Statement .ditherNotSrcOr := by unfold Statement; decide
theorem ditherNotSrcXor : Statement .ditherNotSrcXor := by unfold Statement; decide
theorem ditherNotSrcBic : Statement .ditherNotSrcBic := by unfold Statement; decide
theorem ditherPatCopy : Statement .ditherPatCopy := by unfold Statement; decide
theorem ditherPatOr : Statement .ditherPatOr := by unfold Statement; decide
theorem ditherPatXor : Statement .ditherPatXor := by unfold Statement; decide
theorem ditherPatBic : Statement .ditherPatBic := by unfold Statement; decide
theorem ditherNotPatCopy : Statement .ditherNotPatCopy := by unfold Statement; decide
theorem ditherNotPatOr : Statement .ditherNotPatOr := by unfold Statement; decide
theorem ditherNotPatXor : Statement .ditherNotPatXor := by unfold Statement; decide
theorem ditherNotPatBic : Statement .ditherNotPatBic := by unfold Statement; decide
theorem ldpatSeed : Statement .ldpatSeed := by unfold Statement; decide
theorem ldpatSolid : Statement .ldpatSolid := by unfold Statement; decide
theorem ldpatPreset : Statement .ldpatPreset := by unfold Statement; decide
theorem sample : Statement .sample := by unfold Statement; decide

end Sys2Proof.Laws.WordForm
end

