-- ==== Sys2Proof/Laws/Pixels.lean ====
section
/-! SUPPORT. Pixels, channels, formats and pattern cells: the small lemmas that push the named operations down to arithmetic. -/

namespace Sys2Proof.Machine

@[simp] theorem redOf_rgb (r g b : Chan) : redOf (rgb r g b) = r := by
  apply BitVec.eq_of_getLsbD_eq
  intro i hi
  simp only [redOf, rgb, BitVec.getLsbD_extractLsb', BitVec.getLsbD_append]
  rw [if_neg (by omega), if_neg (by omega)]
  have : 32 + i - 16 - 16 = i := by omega
  simp [this, hi]

@[simp] theorem greenOf_rgb (r g b : Chan) : greenOf (rgb r g b) = g := by
  apply BitVec.eq_of_getLsbD_eq
  intro i hi
  simp only [greenOf, rgb, BitVec.getLsbD_extractLsb', BitVec.getLsbD_append]
  rw [if_neg (by omega), if_pos (by omega)]
  have : 16 + i - 16 = i := by omega
  simp [this, hi]

@[simp] theorem blueOf_rgb (r g b : Chan) : blueOf (rgb r g b) = b := by
  apply BitVec.eq_of_getLsbD_eq
  intro i hi
  simp only [blueOf, rgb, BitVec.getLsbD_extractLsb', BitVec.getLsbD_append]
  rw [if_pos (by omega)]
  simp [hi]

/-- A pixel is its three channels and nothing more: there is no alpha (10_state.md R29). -/
theorem rgb_channels (p : Pixel) : rgb (redOf p) (greenOf p) (blueOf p) = p := by
  apply BitVec.eq_of_getLsbD_eq
  intro i hi
  simp only [redOf, greenOf, blueOf, rgb, BitVec.getLsbD_extractLsb', BitVec.getLsbD_append]
  by_cases h1 : i < 16
  · simp [h1]
  · by_cases h2 : i - 16 < 16
    · have : 16 + (i - 16) = i := by omega
      simp [h1, h2, this]
    · have : 32 + (i - 16 - 16) = i := by omega
      have h3 : i - 16 - 16 < 16 := by omega
      simp [h1, h2, h3, this]

/-- Two colour pixels are equal when their channels are (10_state.md R29). -/
theorem pixel_ext {p q : Pixel} (hr : redOf p = redOf q) (hg : greenOf p = greenOf q) (hb : blueOf p = blueOf q) : p = q := by
  rw [← rgb_channels p, ← rgb_channels q, hr, hg, hb]

@[simp] theorem redOf_lanes (f : Nat → Nat → Nat) (s d : Pixel) :
    redOf (lanes f s d) = BitVec.ofNat 16 (f (redOf s).toNat (redOf d).toNat) := redOf_rgb ..

@[simp] theorem greenOf_lanes (f : Nat → Nat → Nat) (s d : Pixel) :
    greenOf (lanes f s d) = BitVec.ofNat 16 (f (greenOf s).toNat (greenOf d).toNat) := greenOf_rgb ..

@[simp] theorem blueOf_lanes (f : Nat → Nat → Nat) (s d : Pixel) :
    blueOf (lanes f s d) = BitVec.ofNat 16 (f (blueOf s).toNat (blueOf d).toNat) := blueOf_rgb ..

/-- Two per-channel operations that agree on every pair of channel values make the same pixel. -/
theorem lanes_congr {f g : Nat → Nat → Nat} (s d : Pixel) (h : ∀ a b, a < 65536 → b < 65536 → f a b = g a b) :
    lanes f s d = lanes g s d := by
  have hlt (c : Chan) : c.toNat < 65536 := c.isLt
  simp only [lanes, h _ _ (hlt _) (hlt _)]

@[simp] theorem bitOf_zextBit (b : Bit) : bitOf (zextBit b) = b := by
  apply BitVec.eq_of_getLsbD_eq
  intro i hi
  simp only [bitOf, zextBit, BitVec.getLsbD_extractLsb', BitVec.getLsbD_setWidth]
  simp [hi]
  omega

@[simp] theorem inFormat_true (p : Pixel) : inFormat true p = zextBit (bitOf p) := rfl

@[simp] theorem inFormat_false (p : Pixel) : inFormat false p = p := rfl

/-- A value already in the destination's format is driven as it is (40_mode_selector_mux.md R104). -/
@[simp] theorem inFormat_inFormat (one : Bool) (p : Pixel) : inFormat one (inFormat one p) = inFormat one p := by
  cases one <;> simp

/-- Inverting a 1-bit pixel stays in the format (41_boolean_transfer_alu.md R126). -/
@[simp] theorem invertBit_zextBit (b : Bit) : invertBit (zextBit b) = zextBit (b ^^^ 1) := by
  revert b; decide

/-- A mixed channel lies between its two ends (41_boolean_transfer_alu.md R125). -/
theorem mixChan_between (c p q : Nat) (hc : c ≤ 65535) : min p q ≤ mixChan c p q ∧ mixChan c p q ≤ max p q := by
  obtain ⟨e, he⟩ : ∃ e, 65535 - c = e := ⟨_, rfl⟩
  have hce : c + e = 65535 := by omega
  have lo : min p q * 65535 ≤ q * c + p * e := by
    rw [← hce, Nat.mul_add]
    exact Nat.add_le_add (Nat.mul_le_mul_right _ (Nat.min_le_right ..)) (Nat.mul_le_mul_right _ (Nat.min_le_left ..))
  have hi : q * c + p * e ≤ max p q * 65535 := by
    rw [← hce, Nat.mul_add]
    exact Nat.add_le_add (Nat.mul_le_mul_right _ (Nat.le_max_right ..)) (Nat.mul_le_mul_right _ (Nat.le_max_left ..))
  simp only [mixChan, he]
  omega

/-- The mix is symmetric under exchanging its ends and inverting the weight (41_boolean_transfer_alu.md R125). -/
theorem mixChan_invert (c p q : Nat) (hc : c ≤ 65535) : mixChan (65535 - c) p q = mixChan c q p := by
  have : 65535 - (65535 - c) = c := by omega
  simp only [mixChan, this, Nat.add_comm]

/-- No channel of a mix leaves 0..65535 (41_boolean_transfer_alu.md R125). -/
theorem mixChan_lt (c p q : Nat) (hc : c ≤ 65535) (hp : p < 65536) (hq : q < 65536) : mixChan c p q < 65536 := by
  have := (mixChan_between c p q hc).2
  omega

theorem subPinChan_eq (s d : Nat) : subPinChan s d = d - s := by
  unfold subPinChan; omega

theorem subOverChan_lt (s d : Nat) : subOverChan s d < 65536 := by
  unfold subOverChan; omega

/-- No error has the code of OK or the code that is never driven (60_exceptions.md R400, R401). -/
theorem errorCode_ne (e : ErrorKind) : errorCode e ≠ 0 ∧ errorCode e ≠ 7 := by
  cases e <;> decide

/-- A cell is 1 exactly when its bit of the register is set (44_pattern_tile_lut.md R301). -/
theorem cellOf_eq_one (g : Grid) (xi yi : BitVec 3) :
    cellOf g xi yi = 1 ↔ g.getLsbD (63 - (8 * yi.toNat + xi.toNat)) = true := by
  simp only [cellOf, cellIndex]
  generalize 63 - (8 * yi.toNat + xi.toNat) = n
  refine ⟨fun h => by simpa using congrArg (fun v : Bit => v.getLsbD 0) h, fun h => ?_⟩
  apply BitVec.eq_of_getLsbD_eq
  intro i hi
  obtain rfl : i = 0 := by omega
  simp [h]

/-- A sample reads the coordinates mod 8 (44_pattern_tile_lut.md R302). -/
theorem patSample_eq_one (g : Grid) (x y : Word) :
    patSample g x y = 1 ↔ g.getLsbD (63 - (8 * (y.toNat % 8) + x.toNat % 8)) = true := by
  rw [patSample, cellOf_eq_one]
  simp

/-- The midpoint threshold (43_dither_and_modifiers.md R232). -/
theorem project_midpoint_eq_black (m : DitherMatrix) (c : Nat) (xi yi : BitVec 3) :
    project m c xi yi false = .black ↔ 32768 ≤ c := by
  by_cases h : c ≥ 32768 <;> simp [project, h]

/-- The ordered-dither threshold (43_dither_and_modifiers.md R232). -/
theorem project_dither_eq_black (m : DitherMatrix) (c : Nat) (xi yi : BitVec 3) :
    project m c xi yi true = .black ↔ threshold m xi yi < ditherLevel c := by
  by_cases h : ditherLevel c > threshold m xi yi <;> simp [project, h]

/-- A projected operand is BLACK or WHITE, never OTHER (43_dither_and_modifiers.md R232). -/
theorem project_ne_other (m : DitherMatrix) (c : Nat) (xi yi : BitVec 3) (dith : Bool) :
    project m c xi yi dith ≠ .other := by
  unfold project
  repeat' split
  all_goals decide

/-- On a colour destination nothing is projected (41_boolean_transfer_alu.md R123). -/
@[simp] theorem projectOperand_colour (m : DitherMatrix) (fam : Family) (xi yi : BitVec 3) (dith : Bool) (o : Operand) :
    projectOperand m fam false xi yi dith o = o := by
  simp [projectOperand]

/-- Family XOR is never projected (41_boolean_transfer_alu.md R123). -/
@[simp] theorem projectOperand_xor (m : DitherMatrix) (one : Bool) (xi yi : BitVec 3) (dith : Bool) (o : Operand) :
    projectOperand m .xor one xi yi dith o = o := by
  simp [projectOperand]

/-- A BLACK or WHITE operand is never projected (41_boolean_transfer_alu.md R123). -/
theorem projectOperand_known (m : DitherMatrix) (fam : Family) (one : Bool) (xi yi : BitVec 3) (dith : Bool) {o : Operand}
    (h : o.k ≠ .other) : projectOperand m fam one xi yi dith o = o := by
  simp [projectOperand, h]

/-- On a 1-bit destination the boolean unit never mixes: its result is the foreground, the background, the destination or the
inverted destination (41_boolean_transfer_alu.md R123 to R126). -/
theorem boolALU_oneBit_cases (m : DitherMatrix) (fam : Family) (inv : Bool) (o : Operand) (d f bk : Pixel) (xi yi : BitVec 3)
    (dith : Bool) :
    boolALU m fam inv o d f bk true xi yi dith = f ∨ boolALU m fam inv o d f bk true xi yi dith = bk ∨
      boolALU m fam inv o d f bk true xi yi dith = d ∨ boolALU m fam inv o d f bk true xi yi dith = invertBit d := by
  unfold boolALU
  generalize (if inv then invertOperand o else o) = o'
  have known : ∀ o'' : Operand, (fam = .xor ∨ o''.k ≠ .other) → familyTable fam o'' d f bk = f ∨
      familyTable fam o'' d f bk = bk ∨ familyTable fam o'' d f bk = d ∨ familyTable fam o'' d f bk = invertBit d := by
    rintro ⟨k, c⟩ h
    cases fam <;> cases k <;> simp_all [familyTable]
  apply known
  by_cases hx : fam = .xor
  · exact .inl hx
  · refine .inr ?_
    by_cases hk : o'.k = .other
    · simp [projectOperand, hk, hx, project_ne_other]
    · rw [projectOperand_known m fam true xi yi dith hk]; exact hk

/-- The text dither pattern is 1 exactly where x + y is even (43_dither_and_modifiers.md R234). -/
theorem textBit_eq_one (xi yi : BitVec 3) : textBit xi yi = 1 ↔ (xi.toNat + yi.toNat) % 2 = 0 := by
  revert xi yi; decide

end Sys2Proof.Machine
end

