-- ==== Sys2Proof/Tests/Slice0.lean ====
section
/-! SUPPORT. The model's own tests, each by evaluation in the kernel. Expected results are the spec's: 95_test_vectors.md, or the
encodings of 30_encoding.md written out bit by bit. At the end, for every statement with hypotheses, the concrete states and
operands that meet them, clause by clause. -/

open Sys2Proof Sys2Proof.Machine Sys2Proof.Spec

namespace Sys2Proof.Tests

/-! ### Small states -/

abbrev K : Pixel := 0x000000000000

abbrev W : Pixel := 0xFFFFFFFFFFFF

abbrev DC : Pixel := 0x9C404E2003E8

/-- RGB(1000, 2000, 3000), a foreground of 95_test_vectors.md 2.2. -/
abbrev F2 : Pixel := 0x03E807D00BB8

/-- RGB(60000, 50000, 40000), its background. -/
abbrev B2 : Pixel := 0xEA60C3509C40

/-- Ports with a destination DC and nothing else. -/
abbrev DC1 : Ports := { Ports.zero with dstPix := 0x9C404E2003E8 }

/-- A state with the pattern `g` and the ports `q`, under the default parameters, with no event announced. -/
def mk (g : Grid) (q : Ports) : State :=
  { pat := g, ports := q, rsp := none, script := [], draws := 1, cfg := Params.default }

/-- `rsp.pix` and `rsp.status` of one instruction. -/
def reply (i : Instr) (s : State) : Option (Pixel × BitVec 3) :=
  match exec i s with
  | .next t => t.rsp.map fun r => (r.pix, r.status)
  | .fault _ => none
  | .refused _ => none

/-- A 1-bit answer, 9 where there is none. -/
def bitOut : Option (Pixel × BitVec 3) → Nat
  | some (p, 0) => p.toNat
  | some _ => 9
  | none => 9

/-- A colour destination DC. -/
def colour (k : BitVec 2) (c : BitVec 16) (fg bg : Pixel) : State :=
  mk 0 { Ports.zero with srcClass := k, srcCov := c, dstPix := DC, fg := fg, bg := bg }

/-- A 1-bit destination, with the gray pattern loaded. -/
def oneBitAt (k : BitVec 2) (c : BitVec 16) (fg bg d : Pixel) (x y : Word) : State :=
  mk 0xAA55AA55AA55AA55
    { Ports.zero with srcClass := k, srcCov := c, dstPix := d, fg := fg, bg := bg, x := x, y := y, dst1bit := 1 }

/-- A colour destination DC with the light-gray pattern loaded, and the reserved class, which a pattern mode ignores. -/
def tinted (x y : Word) : State :=
  mk 0x8822882288228822 { Ports.zero with srcClass := 3, dstPix := DC, fg := K, bg := W, x := x, y := y }

def mainExample : State :=
  mk 0 { Ports.zero with srcPix := 0xEA6003E87530, dstPix := 0x27100BB87530, weight := 32768 }

def blendAt (w : Word) : Option (Pixel × BitVec 3) :=
  reply .blend (mk 0 { Ports.zero with srcPix := 0xEA6003E87530, dstPix := 0x27100BB87530, weight := w, srcClass := 3 })

def corner (S D : Pixel) : State :=
  mk 0 { Ports.zero with srcPix := S, dstPix := D, bg := 0x0001FFFF8000, weight := 1 }

def knownRow (i : Instr) (fg bg : Pixel) : List Nat :=
  [(1, 0), (1, 1), (0, 0), (0, 1)].map fun c : BitVec 2 × Pixel => bitOut (reply i (oneBitAt c.1 0 fg bg c.2 0 0))

def otherRow (i : Instr) : List Nat :=
  [(32767, 0), (32767, 1), (32768, 0), (32768, 1)].map fun c : BitVec 16 × Pixel =>
    bitOut (reply i (oneBitAt 2 c.1 1 0 c.2 0 0))

def patternRow (i : Instr) : List Nat :=
  [(0, 0, 0), (0, 0, 1), (1, 0, 0), (1, 0, 1), (9, 8, 0), (9, 8, 1), (1, 1, 0), (1, 1, 1)].map
    fun c : Word × Word × Pixel => bitOut (reply i (oneBitAt 3 0 1 0 c.2.2 c.1 c.2.1))

def patternQuad (i : Instr) : List Nat :=
  [(0, 0, 0), (0, 0, 1), (1, 0, 0), (1, 0, 1)].map
    fun c : Word × Word × Pixel => bitOut (reply i (oneBitAt 3 0 1 0 c.2.2 c.1 c.2.1))

/-- Eight columns of one row of the text-only mode, BLACK. -/
def textRow (fg bg d : Pixel) (k : BitVec 2) (y : Word) : List Nat :=
  [0, 1, 2, 3, 4, 5, 6, 7].map fun x : Word => bitOut (reply .grayishText (oneBitAt k 0 fg bg d x y))

/-- Eight columns of one row of an OTHER operand of coverage `c`. -/
def ditherRow (i : Instr) (c : BitVec 16) (y : Word) : List Nat :=
  [0, 1, 2, 3, 4, 5, 6, 7].map fun x : Word => bitOut (reply i (oneBitAt 2 c 1 0 0 x y))

/-- What one step answers to a command: pixel, bit, status, and the pattern it leaves. -/
def stepReply (s : State) (q : Ports) : Option (Pixel × Bit × BitVec 3 × Grid) :=
  match step (pushCommand q s) with
  | .next t => t.rsp.map fun r => (r.pix, r.bit, r.status, t.pat)
  | .fault _ => none
  | .refused _ => none

/-- The status of one command word on otherwise idle ports, colour destination DC. -/
def statusOf (p : OverlapPolicy) (cw : Word) : Option (Pixel × Bit × BitVec 3 × Grid) :=
  stepReply { mk 5 Ports.zero with cfg := { Params.default with overlap := p } } { Ports.zero with cw := cw, dstPix := DC }

/-! ### WellFormed refuses what has no word (30_encoding.md R80, R86) -/

theorem test_wellFormed_refuses_ditherSrcCopy : Instr.wellFormed .hiliteFirst .ditherSrcCopy = false ∧
    Instr.wellFormed .reject .ditherSrcCopy = false := by decide

theorem test_wellFormed_refuses_ditherSrcOr : Instr.wellFormed .hiliteFirst .ditherSrcOr = false ∧
    Instr.wellFormed .reject .ditherSrcOr = false := by decide

theorem test_wellFormed_refuses_hiliteNotPatXor : Instr.wellFormed .ditherFirst .hiliteNotPatXor = false ∧
    Instr.wellFormed .reject .hiliteNotPatXor = false := by decide

theorem test_wellFormed_refuses_hiliteNotPatBic : Instr.wellFormed .ditherFirst .hiliteNotPatBic = false ∧
    Instr.wellFormed .reject .hiliteNotPatBic = false := by decide

theorem test_asm_refuses_a_load_without_operand : AsmLine.wellFormed .ditherFirst (.plain .ldpatSeed) = false ∧
    AsmLine.wellFormed .ditherFirst (.plain .ldpatSolid) = false ∧
    AsmLine.wellFormed .ditherFirst (.plain .ldpatPreset) = false ∧
    AsmLine.wellFormed .reject (.plain .ditherSrcOr) = false := by decide

/-! ### Decoding: the words of 30_encoding.md R70 to R79 bit by bit, three bits of cmd, thirteen zeros, sixteen bits of mode -/

theorem test_decode_bool_source :
    decode .ditherFirst 0b00000000000000000000000000000000 = .ok .srcCopy ∧
    decode .ditherFirst 0b00000000000000000000000000000001 = .ok .srcOr ∧
    decode .ditherFirst 0b00000000000000000000000000000010 = .ok .srcXor ∧
    decode .ditherFirst 0b00000000000000000000000000000011 = .ok .srcBic ∧
    decode .ditherFirst 0b00000000000000000000000000000100 = .ok .notSrcCopy ∧
    decode .ditherFirst 0b00000000000000000000000000000101 = .ok .notSrcOr ∧
    decode .ditherFirst 0b00000000000000000000000000000110 = .ok .notSrcXor ∧
    decode .ditherFirst 0b00000000000000000000000000000111 = .ok .notSrcBic := by decide

theorem test_decode_bool_pattern :
    decode .ditherFirst 0b00000000000000000000000000001000 = .ok .patCopy ∧
    decode .ditherFirst 0b00000000000000000000000000001001 = .ok .patOr ∧
    decode .ditherFirst 0b00000000000000000000000000001010 = .ok .patXor ∧
    decode .ditherFirst 0b00000000000000000000000000001011 = .ok .patBic ∧
    decode .ditherFirst 0b00000000000000000000000000001100 = .ok .notPatCopy ∧
    decode .ditherFirst 0b00000000000000000000000000001101 = .ok .notPatOr ∧
    decode .ditherFirst 0b00000000000000000000000000001110 = .ok .notPatXor ∧
    decode .ditherFirst 0b00000000000000000000000000001111 = .ok .notPatBic := by decide

theorem test_decode_arithmetic_and_text :
    decode .ditherFirst 0b00000000000000000000000000100000 = .ok .blend ∧
    decode .ditherFirst 0b00000000000000000000000000100001 = .ok .addPin ∧
    decode .ditherFirst 0b00000000000000000000000000100010 = .ok .addOver ∧
    decode .ditherFirst 0b00000000000000000000000000100011 = .ok .subPin ∧
    decode .ditherFirst 0b00000000000000000000000000100100 = .ok .transparent ∧
    decode .ditherFirst 0b00000000000000000000000000100101 = .ok .addMax ∧
    decode .ditherFirst 0b00000000000000000000000000100110 = .ok .subOver ∧
    decode .ditherFirst 0b00000000000000000000000000100111 = .ok .addMin ∧
    decode .ditherFirst 0b00000000000000000000000000110001 = .ok .grayishText := by decide

theorem test_decode_hilite :
    decode .ditherFirst 0b00000000000000000000000000110010 = .ok .hiliteSrcCopy ∧
    decode .ditherFirst 0b00000000000000000000000000110011 = .ok .hiliteSrcOr ∧
    decode .ditherFirst 0b00000000000000000000000000110100 = .ok .hiliteSrcXor ∧
    decode .ditherFirst 0b00000000000000000000000000110101 = .ok .hiliteSrcBic ∧
    decode .ditherFirst 0b00000000000000000000000000110110 = .ok .hiliteNotSrcCopy ∧
    decode .ditherFirst 0b00000000000000000000000000110111 = .ok .hiliteNotSrcOr ∧
    decode .ditherFirst 0b00000000000000000000000000111000 = .ok .hiliteNotSrcXor ∧
    decode .ditherFirst 0b00000000000000000000000000111001 = .ok .hiliteNotSrcBic ∧
    decode .ditherFirst 0b00000000000000000000000000111010 = .ok .hilitePatCopy ∧
    decode .ditherFirst 0b00000000000000000000000000111011 = .ok .hilitePatOr ∧
    decode .ditherFirst 0b00000000000000000000000000111100 = .ok .hilitePatXor ∧
    decode .ditherFirst 0b00000000000000000000000000111101 = .ok .hilitePatBic ∧
    decode .ditherFirst 0b00000000000000000000000000111110 = .ok .hiliteNotPatCopy ∧
    decode .ditherFirst 0b00000000000000000000000000111111 = .ok .hiliteNotPatOr := by decide

theorem test_decode_dither :
    decode .ditherFirst 0b00000000000000000000000001000000 = .ok .ditherSrcCopy ∧
    decode .ditherFirst 0b00000000000000000000000001000001 = .ok .ditherSrcOr ∧
    decode .ditherFirst 0b00000000000000000000000001000010 = .ok .ditherSrcXor ∧
    decode .ditherFirst 0b00000000000000000000000001000011 = .ok .ditherSrcBic ∧
    decode .ditherFirst 0b00000000000000000000000001000100 = .ok .ditherNotSrcCopy ∧
    decode .ditherFirst 0b00000000000000000000000001000101 = .ok .ditherNotSrcOr ∧
    decode .ditherFirst 0b00000000000000000000000001000110 = .ok .ditherNotSrcXor ∧
    decode .ditherFirst 0b00000000000000000000000001000111 = .ok .ditherNotSrcBic ∧
    decode .ditherFirst 0b00000000000000000000000001001000 = .ok .ditherPatCopy ∧
    decode .ditherFirst 0b00000000000000000000000001001001 = .ok .ditherPatOr ∧
    decode .ditherFirst 0b00000000000000000000000001001010 = .ok .ditherPatXor ∧
    decode .ditherFirst 0b00000000000000000000000001001011 = .ok .ditherPatBic ∧
    decode .ditherFirst 0b00000000000000000000000001001100 = .ok .ditherNotPatCopy ∧
    decode .ditherFirst 0b00000000000000000000000001001101 = .ok .ditherNotPatOr ∧
    decode .ditherFirst 0b00000000000000000000000001001110 = .ok .ditherNotPatXor ∧
    decode .ditherFirst 0b00000000000000000000000001001111 = .ok .ditherNotPatBic := by decide

theorem test_decode_pattern_commands :
    decode .ditherFirst 0b00100000000000000000000000000000 = .ok .ldpatSeed ∧
    decode .ditherFirst 0b01000000000000000000000000000000 = .ok .ldpatSolid ∧
    decode .ditherFirst 0b01100000000000000000000000000000 = .ok .ldpatPreset ∧
    decode .ditherFirst 0b10000000000000000000000000000000 = .ok .sample := by decide

theorem test_decode_overlap_hiliteFirst :
    decode .hiliteFirst 0b00000000000000000000000001000000 = .ok .hiliteNotPatXor ∧
    decode .hiliteFirst 0b00000000000000000000000001000001 = .ok .hiliteNotPatBic ∧
    decode .hiliteFirst 0b00000000000000000000000001000010 = .ok .ditherSrcXor := by decide

theorem test_decode_overlap_reject :
    decode .reject 0b00000000000000000000000001000000 = .error .unsupportedMode ∧
    decode .reject 0b00000000000000000000000001000001 = .error .unsupportedMode ∧
    decode .reject 0b00000000000000000000000001000010 = .ok .ditherSrcXor := by decide

theorem test_decode_invalid_modes :
    [0x10, 0x1F, 0x28, 0x30, 0x50, 0x63, 0xFF, 0xFFFF].map (decode .ditherFirst) =
      List.replicate 8 (.error .unsupportedMode) := by decide

theorem test_decode_illegal_words :
    [0x00010000, 0x10000000, 0x00010063, 0x60010000, 0xA0000000, 0xC0000000, 0xE0000000].map (decode .ditherFirst) =
      List.replicate 7 (.error .illegalCommand) := by decide

theorem test_decode_ignores_mode_of_loads : decode .ditherFirst 0x20000020 = .ok .ldpatSeed ∧
    decode .ditherFirst 0x8000FFFF = .ok .sample := by decide

theorem test_asm_words : AsmLine.assemble (.plain .blend) = (0x00000020, none) ∧
    AsmLine.assemble (.compositeCode 99) = (0x00000063, none) ∧
    AsmLine.assemble (.ldpatSeed 0x88228822) = (0x20000000, some 0x88228822) ∧
    AsmLine.assemble (.ldpatSolid 1) = (0x40000000, some 1) ∧
    AsmLine.assemble (.ldpatPreset 7) = (0x60000000, some 7) ∧ AsmLine.assemble (.plain .sample) = (0x80000000, none) := by decide

theorem test_pseudo_words : Pseudo.ldpatDkgray.expand.assemble = (0x60000000, some 4) ∧
    Pseudo.ditherCopy.expand.assemble = (0x00000040, none) ∧ Pseudo.hilite.expand.assemble = (0x00000032, none) := by decide

/-- The host's two entry points agree on a word: it decodes, and it is the first that runs after reset. -/
theorem test_withFetchWord_runs_after_reset : decodeTableWord 32 0x40000000 = some .ldpatSolid ∧
    (match step (State.reset.withFetchWord 32 0x40000000) with
      | .next t => t.pat = 0 ∧ t.rsp = some { pix := 0, bit := 0, status := 0 }
      | .fault _ => False
      | .refused _ => False) := ⟨by decide, rfl, rfl⟩

/-! ### Errors and their order: 95_test_vectors.md 2.1 -/

theorem test_status_of_words : [0x00000063, 0x00010000, 0xA0000000, 0x00000042].map (statusOf .ditherFirst) =
    [some (DC, 0, 1, 5), some (DC, 0, 6, 5), some (DC, 0, 6, 5), some (DC, 0, 2, 5)] := by decide

theorem test_status_of_overlap_words :
    statusOf .hiliteFirst 0x00000040 = some (DC, 0, 2, 5) ∧ statusOf .reject 0x00000040 = some (DC, 0, 1, 5) ∧
    statusOf .ditherFirst 0x00000000 = some (0, 0, 0, 5) := by decide

/-- The priority vectors, each on the pattern 5 and a destination 7. -/
def priority (q : Ports) : Option (Pixel × Bit × BitVec 3 × Grid) := stepReply (mk 5 Ports.zero) { q with dstPix := 7 }

theorem test_priority_mode_before_operand :
    priority { Ports.zero with cw := 0x63, srcClass := 3 } = some (7, 0, 1, 5) := by decide

theorem test_priority_operand_before_undefined :
    priority { Ports.zero with cw := 0x02, srcClass := 3 } = some (7, 0, 4, 5) ∧
    priority { Ports.zero with cw := 0x02, srcClass := 2 } = some (7, 0, 2, 5) ∧
    priority { Ports.zero with cw := 0x0A, srcClass := 3 } = some (7, 0, 2, 5) := by decide

theorem test_priority_of_blend :
    priority { Ports.zero with cw := 0x20, srcClass := 3, weight := 0xFFFFFFFF } = some (7, 0, 3, 5) ∧
    priority { Ports.zero with cw := 0x20, srcClass := 3, weight := 0xFFFFFFFF, dst1bit := 1 } = some (7, 0, 4, 5) ∧
    priority { Ports.zero with cw := 0x20, srcClass := 1, weight := 0xFFFFFFFF, dst1bit := 1, fg := 1 } = some (1, 0, 0, 5) := by
  decide

theorem test_priority_of_reverted_and_transparent :
    priority { Ports.zero with cw := 0x22, srcClass := 3, dst1bit := 1 } = some (7, 0, 4, 5) ∧
    priority { Ports.zero with cw := 0x24, srcClass := 3, dst1bit := 1, srcPix := 1 } = some (1, 0, 0, 5) := by decide

theorem test_priority_of_presets :
    priority { Ports.zero with cw := 0x60000000, arg := 7 } = some (7, 0, 5, 5) ∧
    priority { Ports.zero with cw := 0x60010000, arg := 7 } = some (7, 0, 6, 5) := by decide

/-! ### Pattern commands: 95_test_vectors.md 2.8 -/

/-- Status and pattern after a load from the pattern 5. -/
def loaded (cw arg : Word) : Option (BitVec 3 × Grid) :=
  (stepReply (mk 5 Ports.zero) { Ports.zero with cw := cw, arg := arg }).map fun r => r.2.2

theorem test_ldpatSeed : loaded 0x20000000 0x12345678 = some (0, 0x1234567812345678) ∧
    loaded 0x20000000 0 = some (0, 0) := by decide

theorem test_ldpatSolid : loaded 0x40000000 1 = some (0, 0xFFFFFFFFFFFFFFFF) ∧ loaded 0x40000000 2 = some (0, 0) := by decide

theorem test_ldpatPreset : [0, 1, 2, 3, 4, 5, 0x102].map (loaded 0x60000000) =
    [some (0, 0), some (0, 0xFFFFFFFFFFFFFFFF), some (0, 0xAA55AA55AA55AA55), some (0, 0x8822882288228822),
      some (0, 0x77DD77DD77DD77DD), some (5, 5), some (5, 5)] := by decide

theorem test_sample : [(3, 0), (0, 0), (6, 0), (2, 1), (4, 1), (5, 1), (1, 3), (1, 7), (0xFFFFFFFB, 3)].map
    (fun c : Word × Word => (stepReply (mk 0x1234567812345678 Ports.zero)
      { Ports.zero with cw := 0x80000000, x := c.1, y := c.2, dstPix := DC }).map fun r => (r.1, r.2.1)) =
    [1, 0, 1, 1, 0, 1, 1, 1, 1].map fun b : Bit => some (DC, b) := by decide

theorem test_presets_rows : ([0xAA55AA55AA55AA55, 0x8822882288228822, 0x77DD77DD77DD77DD].map fun g : Grid =>
      ([0, 1].map fun y : Word => [0, 1, 2, 3, 4, 5, 6, 7].map fun x : Word => (patSample g x y).toNat)) =
    [[[1, 0, 1, 0, 1, 0, 1, 0], [0, 1, 0, 1, 0, 1, 0, 1]], [[1, 0, 0, 0, 1, 0, 0, 0], [0, 0, 1, 0, 0, 0, 1, 0]],
      [[0, 1, 1, 1, 0, 1, 1, 1], [1, 1, 0, 1, 1, 1, 0, 1]]] := by decide

/-- The palette of 10_state.md R32. -/
theorem test_palette : monochromePalette 0 = 0xFFFFFFFFFFFF ∧ monochromePalette 1 = 0x000000000000 := by decide

/-- The class that agrees with the source pixel: by the palette on a colour destination (10_state.md R31, R32), and on a 1-bit one
OTHER beside either bit, as program P4 of 95_test_vectors.md presents it (log 13). -/
theorem test_classAgrees :
    classAgrees { Ports.zero with srcPix := W, srcClass := 0 } = true ∧
    classAgrees { Ports.zero with srcPix := K, srcClass := 1 } = true ∧
    classAgrees { Ports.zero with srcPix := DC, srcClass := 2 } = true ∧
    classAgrees { Ports.zero with srcPix := K, srcClass := 2 } = false ∧
    classAgrees { Ports.zero with dst1bit := 1, srcClass := 2, srcCov := 16384, fg := 1 } = true ∧
    classAgrees { Ports.zero with dst1bit := 1, srcPix := 1, srcClass := 1 } = true ∧
    classAgrees { Ports.zero with dst1bit := 1, srcPix := 1, srcClass := 0 } = false ∧
    classAgrees { Ports.zero with dst1bit := 1, srcClass := 3 } = false := by decide

/-- The host's write-back (70_reset_and_hazards.md R506): an error leaves the old pixel. -/
theorem test_callerStore : callerStore Ports.zero { pix := 9, bit := 0, status := 0 } 4 = 9 ∧
    callerStore Ports.zero { pix := 9, bit := 0, status := 2 } 4 = 4 := by decide


/-! ### Boolean source modes: 95_test_vectors.md 2.2. The rows are [BLACK d=0, BLACK d=1, WHITE d=0, WHITE d=1] with fg=1, bg=0 and
with fg=0, bg=1, and [c=32767 d=0, c=32767 d=1, c=32768 d=0, c=32768 d=1] of an OTHER operand with fg=1, bg=0. -/

theorem test_srcCopy_oneBit : knownRow .srcCopy 1 0 = [1, 1, 0, 0] ∧ knownRow .srcCopy 0 1 = [0, 0, 1, 1] ∧
    otherRow .srcCopy = [0, 0, 1, 1] := by decide

theorem test_srcOr_oneBit : knownRow .srcOr 1 0 = [1, 1, 0, 1] ∧ knownRow .srcOr 0 1 = [0, 0, 0, 1] ∧
    otherRow .srcOr = [0, 1, 1, 1] := by decide

theorem test_srcXor_oneBit : knownRow .srcXor 1 0 = [1, 0, 0, 1] ∧ knownRow .srcXor 0 1 = [1, 0, 0, 1] ∧
    otherRow .srcXor = [0, 1, 0, 1] := by decide

theorem test_srcBic_oneBit : knownRow .srcBic 1 0 = [0, 0, 0, 1] ∧ knownRow .srcBic 0 1 = [1, 1, 0, 1] ∧
    otherRow .srcBic = [0, 1, 0, 0] := by decide

theorem test_notSrcCopy_oneBit : knownRow .notSrcCopy 1 0 = [0, 0, 1, 1] ∧ knownRow .notSrcCopy 0 1 = [1, 1, 0, 0] ∧
    otherRow .notSrcCopy = [1, 1, 0, 0] := by decide

theorem test_notSrcOr_oneBit : knownRow .notSrcOr 1 0 = [0, 1, 1, 1] ∧ knownRow .notSrcOr 0 1 = [0, 1, 0, 0] ∧
    otherRow .notSrcOr = [1, 1, 0, 1] := by decide

theorem test_notSrcXor_oneBit : knownRow .notSrcXor 1 0 = [0, 1, 1, 0] ∧ knownRow .notSrcXor 0 1 = [0, 1, 1, 0] ∧
    otherRow .notSrcXor = [0, 1, 0, 1] := by decide

theorem test_notSrcBic_oneBit : knownRow .notSrcBic 1 0 = [0, 1, 0, 0] ∧ knownRow .notSrcBic 0 1 = [0, 1, 1, 1] ∧
    otherRow .notSrcBic = [0, 0, 0, 1] := by decide

/-! Colour: OTHER at c = 16384 with fg=K, bg=W, and BLACK and WHITE with the two colours of the section. -/

theorem test_srcCopy_colour : reply .srcCopy (colour 2 16384 K W) = some (0xBFFFBFFFBFFF, 0) ∧
    reply .srcCopy (colour 1 0 F2 B2) = some (0x03E807D00BB8, 0) ∧ reply .srcCopy (colour 0 0 F2 B2) = some (0xEA60C3509C40, 0) := by decide

theorem test_srcOr_colour : reply .srcOr (colour 2 16384 K W) = some (0x752F3A9702ED, 0) ∧
    reply .srcOr (colour 1 0 F2 B2) = some (0x03E807D00BB8, 0) ∧ reply .srcOr (colour 0 0 F2 B2) = some (0x9C404E2003E8, 0) := by decide

theorem test_srcXor_colour : reply .srcXor (colour 2 16384 K W) = some (0x9C404E2003E8, 2) := by decide

theorem test_srcBic_colour : reply .srcBic (colour 2 16384 K W) = some (0xB52F7A9742ED, 0) ∧
    reply .srcBic (colour 1 0 F2 B2) = some (0xEA60C3509C40, 0) ∧ reply .srcBic (colour 0 0 F2 B2) = some (0x9C404E2003E8, 0) := by decide

theorem test_notSrcCopy_colour : reply .notSrcCopy (colour 2 16384 K W) = some (0x400040004000, 0) ∧
    reply .notSrcCopy (colour 1 0 F2 B2) = some (0xEA60C3509C40, 0) ∧ reply .notSrcCopy (colour 0 0 F2 B2) = some (0x03E807D00BB8, 0) := by decide

theorem test_notSrcOr_colour : reply .notSrcOr (colour 2 16384 K W) = some (0x2710138800FA, 0) ∧
    reply .notSrcOr (colour 1 0 F2 B2) = some (0x9C404E2003E8, 0) ∧ reply .notSrcOr (colour 0 0 F2 B2) = some (0x03E807D00BB8, 0) := by decide

theorem test_notSrcXor_colour : reply .notSrcXor (colour 2 16384 K W) = some (0x9C404E2003E8, 2) := by decide

theorem test_notSrcBic_colour : reply .notSrcBic (colour 2 16384 K W) = some (0xE70FD387C0F9, 0) ∧
    reply .notSrcBic (colour 1 0 F2 B2) = some (0x9C404E2003E8, 0) ∧ reply .notSrcBic (colour 0 0 F2 B2) = some (0xEA60C3509C40, 0) := by decide

/-! ### Boolean pattern modes: 95_test_vectors.md 2.3. The row is (0,0), (1,0), (9,8), (1,1) of the gray pattern, each with d = 0 and
d = 1, fg=1, bg=0; colour is (0,0) and (1,0) of the light-gray pattern. -/

theorem test_patCopy : patternRow .patCopy = [1, 1, 0, 0, 0, 0, 1, 1] ∧
    reply .patCopy (tinted 0 0) = some (0x000000000000, 0) ∧ reply .patCopy (tinted 1 0) = some (0xFFFFFFFFFFFF, 0) := by decide

theorem test_patOr : patternRow .patOr = [1, 1, 0, 1, 0, 1, 1, 1] ∧
    reply .patOr (tinted 0 0) = some (0x000000000000, 0) ∧ reply .patOr (tinted 1 0) = some (0x9C404E2003E8, 0) := by decide

theorem test_patXor : patternRow .patXor = [1, 0, 0, 1, 0, 1, 1, 0] ∧
    reply .patXor (tinted 0 0) = some (0x9C404E2003E8, 2) ∧ reply .patXor (tinted 1 0) = some (0x9C404E2003E8, 2) := by decide

theorem test_patBic : patternRow .patBic = [0, 0, 0, 1, 0, 1, 0, 0] ∧
    reply .patBic (tinted 0 0) = some (0xFFFFFFFFFFFF, 0) ∧ reply .patBic (tinted 1 0) = some (0x9C404E2003E8, 0) := by decide

theorem test_notPatCopy : patternRow .notPatCopy = [0, 0, 1, 1, 1, 1, 0, 0] ∧
    reply .notPatCopy (tinted 0 0) = some (0xFFFFFFFFFFFF, 0) ∧ reply .notPatCopy (tinted 1 0) = some (0x000000000000, 0) := by decide

theorem test_notPatOr : patternRow .notPatOr = [0, 1, 1, 1, 1, 1, 0, 1] ∧
    reply .notPatOr (tinted 0 0) = some (0x9C404E2003E8, 0) ∧ reply .notPatOr (tinted 1 0) = some (0x000000000000, 0) := by decide

theorem test_notPatXor : patternRow .notPatXor = [0, 1, 1, 0, 1, 0, 0, 1] ∧
    reply .notPatXor (tinted 0 0) = some (0x9C404E2003E8, 2) ∧ reply .notPatXor (tinted 1 0) = some (0x9C404E2003E8, 2) := by decide

theorem test_notPatBic : patternRow .notPatBic = [0, 1, 0, 0, 0, 0, 0, 1] ∧
    reply .notPatBic (tinted 0 0) = some (0x9C404E2003E8, 0) ∧ reply .notPatBic (tinted 1 0) = some (0xFFFFFFFFFFFF, 0) := by decide

/-! ### Arithmetic modes: 95_test_vectors.md 2.4. The main example, and the three channel corner cases (weight 1, bg
0x0001FFFF8000). -/

theorem test_blend : reply .blend mainExample = some (0x88B807CF7530, 0) ∧
    reply .blend (corner 0xFFFFFFFF0000 0xFFFF00010000) = some (0xFFFF00010000, 0) ∧
    reply .blend (corner 0x000000000001 0x0000FFFF0000) = some (0x0000FFFE0000, 0) ∧
    reply .blend (corner 0x0001FFFF8000 0xFFFFFFFF8000) = some (0xFFFEFFFF8000, 0) := by decide

theorem test_addPin : reply .addPin mainExample = some (0xFFFF0FA0EA60, 0) ∧
    reply .addPin (corner 0xFFFFFFFF0000 0xFFFF00010000) = some (0xFFFFFFFF0000, 0) ∧
    reply .addPin (corner 0x000000000001 0x0000FFFF0000) = some (0x0000FFFF0001, 0) ∧
    reply .addPin (corner 0x0001FFFF8000 0xFFFFFFFF8000) = some (0xFFFFFFFFFFFF, 0) := by decide

theorem test_addOver : reply .addOver mainExample = some (0x11700FA0EA60, 0) ∧
    reply .addOver (corner 0xFFFFFFFF0000 0xFFFF00010000) = some (0xFFFE00000000, 0) ∧
    reply .addOver (corner 0x000000000001 0x0000FFFF0000) = some (0x0000FFFF0001, 0) ∧
    reply .addOver (corner 0x0001FFFF8000 0xFFFFFFFF8000) = some (0x0000FFFE0000, 0) := by decide

theorem test_subPin : reply .subPin mainExample = some (0x000007D00000, 0) ∧
    reply .subPin (corner 0xFFFFFFFF0000 0xFFFF00010000) = some (0x000000000000, 0) ∧
    reply .subPin (corner 0x000000000001 0x0000FFFF0000) = some (0x0000FFFF0000, 0) ∧
    reply .subPin (corner 0x0001FFFF8000 0xFFFFFFFF8000) = some (0xFFFE00000000, 0) := by decide

theorem test_transparent : reply .transparent (corner 0xFFFFFFFF0000 0xFFFF00010000) = some (0xFFFFFFFF0000, 0) ∧
    reply .transparent (corner 0x000000000001 0x0000FFFF0000) = some (0x000000000001, 0) ∧
    reply .transparent (corner 0x0001FFFF8000 0xFFFFFFFF8000) = some (0xFFFFFFFF8000, 0) := by decide

theorem test_addMax : reply .addMax mainExample = some (0xEA600BB87530, 0) ∧
    reply .addMax (corner 0xFFFFFFFF0000 0xFFFF00010000) = some (0xFFFFFFFF0000, 0) ∧
    reply .addMax (corner 0x000000000001 0x0000FFFF0000) = some (0x0000FFFF0001, 0) ∧
    reply .addMax (corner 0x0001FFFF8000 0xFFFFFFFF8000) = some (0xFFFFFFFF8000, 0) := by decide

theorem test_subOver : reply .subOver mainExample = some (0x3CB007D00000, 0) ∧
    reply .subOver (corner 0xFFFFFFFF0000 0xFFFF00010000) = some (0x000000020000, 0) ∧
    reply .subOver (corner 0x000000000001 0x0000FFFF0000) = some (0x0000FFFFFFFF, 0) ∧
    reply .subOver (corner 0x0001FFFF8000 0xFFFFFFFF8000) = some (0xFFFE00000000, 0) := by decide

theorem test_addMin : reply .addMin mainExample = some (0x271003E87530, 0) ∧
    reply .addMin (corner 0xFFFFFFFF0000 0xFFFF00010000) = some (0xFFFF00010000, 0) ∧
    reply .addMin (corner 0x000000000001 0x0000FFFF0000) = some (0x000000000000, 0) ∧
    reply .addMin (corner 0x0001FFFF8000 0xFFFFFFFF8000) = some (0x0001FFFF8000, 0) := by decide

theorem test_blend_weights : blendAt 0xFFFFFFFF = some (0x27100BB87530, 3) ∧
    blendAt 0 = some (0x27100BB87530, 0) ∧
    blendAt 1 = some (0x27100BB77530, 0) ∧
    blendAt 32767 = some (0x88B707D07530, 0) ∧
    blendAt 32768 = some (0x88B807CF7530, 0) ∧
    blendAt 65534 = some (0xEA5F03E87530, 0) ∧
    blendAt 65535 = some (0xEA6003E87530, 0) ∧
    blendAt 65536 = some (0x27100BB87530, 3) ∧
    blendAt 0x80000000 = some (0x27100BB87530, 3) ∧
    blendAt 0x7FFFFFFF = some (0x27100BB87530, 3) := by decide

/-- 1-bit TRANSPARENT, (s, b, d) in counting order. -/
theorem test_transparent_oneBit : [(0, 0, 0), (0, 0, 1), (0, 1, 0), (0, 1, 1), (1, 0, 0), (1, 0, 1), (1, 1, 0), (1, 1, 1)].map
    (fun c : Pixel × Pixel × Pixel =>
      bitOut (reply .transparent (mk 0 { Ports.zero with srcPix := c.1, bg := c.2.1, dstPix := c.2.2, dst1bit := 1, srcClass := 3 }))) =
    [0, 1, 0, 0, 1, 1, 0, 1] := by decide

/-! ### The text-only mode: 95_test_vectors.md 2.7 -/

theorem test_grayishText_colour : reply .grayishText (colour 1 0 K W) = some (0x7FFF7FFF7FFF, 0) ∧
    reply .grayishText (colour 0 0 K W) = some (0x9C404E2003E8, 0) ∧
    reply .grayishText (colour 2 32768 K W) = some (0x8E1F670F41F3, 0) ∧
    reply .grayishText (colour 1 0 0xFFFF00000001 K) = some (0x7FFF00000000, 0) ∧
    reply .grayishText (colour 3 0 K W) = some (0x9C404E2003E8, 4) := by decide

theorem test_grayishText_oneBit : textRow 1 0 0 1 0 = [1, 0, 1, 0, 1, 0, 1, 0] ∧ textRow 1 0 0 1 1 = [0, 1, 0, 1, 0, 1, 0, 1] ∧
    textRow 0 1 1 1 0 = [0, 1, 0, 1, 0, 1, 0, 1] ∧
    bitOut (reply .grayishText (oneBitAt 2 32767 1 0 0 0 0)) = 0 ∧
    bitOut (reply .grayishText (oneBitAt 2 32768 1 0 0 0 0)) = 1 := by decide

/-! ### Highlight modes: 95_test_vectors.md 2.6, fg=1, bg=0, and colour with a BLACK operand (a pattern bit of 1), fg=K, bg=W. -/

theorem test_hiliteSrcCopy : knownRow .hiliteSrcCopy 1 0 = [0, 0, 1, 1] ∧ reply .hiliteSrcCopy (colour 1 0 K W) = some (0xFFFFFFFFFFFF, 0) := by decide

theorem test_hiliteSrcOr : knownRow .hiliteSrcOr 1 0 = [0, 0, 0, 1] ∧ reply .hiliteSrcOr (colour 1 0 K W) = some (0xFFFFFFFFFFFF, 0) := by decide

theorem test_hiliteSrcXor : knownRow .hiliteSrcXor 1 0 = [1, 0, 0, 1] ∧ reply .hiliteSrcXor (colour 1 0 K W) = some (0x9C404E2003E8, 2) := by decide

theorem test_hiliteSrcBic : knownRow .hiliteSrcBic 1 0 = [1, 1, 0, 1] ∧ reply .hiliteSrcBic (colour 1 0 K W) = some (0x000000000000, 0) := by decide

theorem test_hiliteNotSrcCopy : knownRow .hiliteNotSrcCopy 1 0 = [1, 1, 0, 0] ∧ reply .hiliteNotSrcCopy (colour 1 0 K W) = some (0x000000000000, 0) := by decide

theorem test_hiliteNotSrcOr : knownRow .hiliteNotSrcOr 1 0 = [0, 1, 0, 0] ∧ reply .hiliteNotSrcOr (colour 1 0 K W) = some (0x9C404E2003E8, 0) := by decide

theorem test_hiliteNotSrcXor : knownRow .hiliteNotSrcXor 1 0 = [0, 1, 1, 0] ∧ reply .hiliteNotSrcXor (colour 1 0 K W) = some (0x9C404E2003E8, 2) := by decide

theorem test_hiliteNotSrcBic : knownRow .hiliteNotSrcBic 1 0 = [0, 1, 1, 1] ∧ reply .hiliteNotSrcBic (colour 1 0 K W) = some (0x9C404E2003E8, 0) := by decide

theorem test_hilitePatCopy : patternQuad .hilitePatCopy = [0, 0, 1, 1] ∧ reply .hilitePatCopy (tinted 0 0) = some (0xFFFFFFFFFFFF, 0) := by decide

theorem test_hilitePatOr : patternQuad .hilitePatOr = [0, 0, 0, 1] ∧ reply .hilitePatOr (tinted 0 0) = some (0xFFFFFFFFFFFF, 0) := by decide

theorem test_hilitePatXor : patternQuad .hilitePatXor = [1, 0, 0, 1] ∧ reply .hilitePatXor (tinted 0 0) = some (0x9C404E2003E8, 2) := by decide

theorem test_hilitePatBic : patternQuad .hilitePatBic = [1, 1, 0, 1] ∧ reply .hilitePatBic (tinted 0 0) = some (0x000000000000, 0) := by decide

theorem test_hiliteNotPatCopy : patternQuad .hiliteNotPatCopy = [1, 1, 0, 0] ∧ reply .hiliteNotPatCopy (tinted 0 0) = some (0x000000000000, 0) := by decide

theorem test_hiliteNotPatOr : patternQuad .hiliteNotPatOr = [0, 1, 0, 0] ∧ reply .hiliteNotPatOr (tinted 0 0) = some (0x9C404E2003E8, 0) := by decide

theorem test_hiliteNotPatXor : patternQuad .hiliteNotPatXor = [0, 1, 1, 0] ∧ reply .hiliteNotPatXor (tinted 0 0) = some (0x9C404E2003E8, 2) := by decide

theorem test_hiliteNotPatBic : patternQuad .hiliteNotPatBic = [0, 1, 1, 1] ∧ reply .hiliteNotPatBic (tinted 0 0) = some (0x9C404E2003E8, 0) := by decide

theorem test_hilite_other : reply .hiliteSrcCopy (colour 2 16384 K W) = some (0x400040004000, 0) ∧
    reply .hiliteSrcBic (colour 2 16384 K W) = some (0x752F3A9702ED, 0) ∧
    bitOut (reply .hiliteSrcCopy (oneBitAt 2 32768 1 0 0 0 0)) = 0 := by decide

/-! ### Dither modes: 95_test_vectors.md 2.5, row y = 0 at c = 32768, d = 0, fg=1, bg=0 (the pattern modes over the gray pattern), and
the columns where the base table puts a 1 for d = 1. -/

theorem test_ditherSrcCopy : ditherRow .ditherSrcCopy 32768 0 = [1, 0, 1, 0, 1, 0, 1, 0] := by decide

theorem test_ditherSrcOr : ditherRow .ditherSrcOr 32768 0 = [1, 0, 1, 0, 1, 0, 1, 0] := by decide

theorem test_ditherSrcXor : ditherRow .ditherSrcXor 32768 0 = [0, 0, 0, 0, 0, 0, 0, 0] := by decide

theorem test_ditherSrcBic : ditherRow .ditherSrcBic 32768 0 = [0, 0, 0, 0, 0, 0, 0, 0] := by decide

theorem test_ditherNotSrcCopy : ditherRow .ditherNotSrcCopy 32768 0 = [1, 0, 1, 0, 1, 0, 1, 0] := by decide

theorem test_ditherNotSrcOr : ditherRow .ditherNotSrcOr 32768 0 = [1, 0, 1, 0, 1, 0, 1, 0] := by decide

theorem test_ditherNotSrcXor : ditherRow .ditherNotSrcXor 32768 0 = [0, 0, 0, 0, 0, 0, 0, 0] := by decide

theorem test_ditherNotSrcBic : ditherRow .ditherNotSrcBic 32768 0 = [0, 0, 0, 0, 0, 0, 0, 0] := by decide

theorem test_ditherPatCopy : ditherRow .ditherPatCopy 32768 0 = [1, 0, 1, 0, 1, 0, 1, 0] := by decide

theorem test_ditherPatOr : ditherRow .ditherPatOr 32768 0 = [1, 0, 1, 0, 1, 0, 1, 0] := by decide

theorem test_ditherPatXor : ditherRow .ditherPatXor 32768 0 = [1, 0, 1, 0, 1, 0, 1, 0] := by decide

theorem test_ditherPatBic : ditherRow .ditherPatBic 32768 0 = [0, 0, 0, 0, 0, 0, 0, 0] := by decide

theorem test_ditherNotPatCopy : ditherRow .ditherNotPatCopy 32768 0 = [0, 1, 0, 1, 0, 1, 0, 1] := by decide

theorem test_ditherNotPatOr : ditherRow .ditherNotPatOr 32768 0 = [0, 1, 0, 1, 0, 1, 0, 1] := by decide

theorem test_ditherNotPatXor : ditherRow .ditherNotPatXor 32768 0 = [0, 1, 0, 1, 0, 1, 0, 1] := by decide

theorem test_ditherNotPatBic : ditherRow .ditherNotPatBic 32768 0 = [0, 0, 0, 0, 0, 0, 0, 0] := by decide

/-- Two rows of the tiles at c = 16384, and the colour destination. -/
theorem test_dither_tiles : ditherRow .ditherSrcCopy 16384 0 = [1, 0, 1, 0, 1, 0, 1, 0] ∧
    ditherRow .ditherSrcCopy 16384 3 = [0, 0, 0, 0, 0, 0, 0, 0] ∧
    ditherRow .ditherNotSrcCopy 16384 0 = [1, 1, 1, 1, 1, 1, 1, 1] ∧
    ditherRow .ditherNotSrcCopy 16384 5 = [0, 1, 0, 1, 0, 1, 0, 1] ∧
    reply .ditherSrcCopy (colour 2 16384 K W) = some (0xBFFFBFFFBFFF, 0) := by decide

theorem test_ditherLevel : [0, 1, 512, 1024, 16384, 32767, 32768, 49152, 65534, 65535].map ditherLevel =
    [0, 0, 1, 1, 16, 32, 32, 48, 64, 64] := by decide

theorem test_bayer_permutes : bayerMatrix.isPermutation = true := by decide


/-! ### Witnesses: for every statement with hypotheses, states and operands that meet them, clause by clause -/

/-- The instruction ends with a next state and a response there. -/
abbrev completes (i : Instr) (s : State) : Prop := (reply i s).isSome = true

/-- A state that presents depth, class, coverage and the coordinates (0, 0), over the gray pattern, whose bit there is 1. -/
def at00 (one : Bit) (k : BitVec 2) (c : BitVec 16) : State :=
  mk 0xAA55AA55AA55AA55 { Ports.zero with dst1bit := one, srcClass := k, srcCov := c, dstPix := DC, fg := F2, bg := B2 }

/-- As `at00`, at the coordinates (1, 0), where the pattern bit is 0. -/
def at10 (one : Bit) : State :=
  mk 0xAA55AA55AA55AA55 { Ports.zero with dst1bit := one, srcClass := 3, dstPix := DC, fg := F2, bg := B2, x := 1 }

/-- Every clause of `SourceMode`: the reserved class on both depths, each class on each depth, and both sides of the threshold. -/
abbrev SourceClausesMet (i : Instr) : Prop :=
  ((at00 0 3 0).ports.srcClass = 3 ∧ completes i (at00 0 3 0)) ∧ ((at00 1 3 0).ports.srcClass = 3 ∧ completes i (at00 1 3 0)) ∧
  (∀ k : BitVec 2, k ≠ 3 → (at00 0 k 16384).ports.dst1bit = 0 ∧ (at00 0 k 16384).ports.srcClass = k ∧
    completes i (at00 0 k 16384)) ∧
  (∀ k : BitVec 2, k ≠ 3 → (at00 1 k 32767).ports.dst1bit = 1 ∧ (at00 1 k 32767).ports.srcClass = k ∧
    completes i (at00 1 k 32767)) ∧
  (32768 ≤ coverage (at00 1 2 32768) ∧ (at00 1 2 32768).ports.srcClass = 2 ∧ completes i (at00 1 2 32768)) ∧
  ¬ 32768 ≤ coverage (at00 1 2 32767)

/-- Every clause of `DitheredMode`, with the level that exceeds the entry 0 by one, and the level 0; `a` and `b` are coverages that
come to 512 and 511 after the instruction's inversion. -/
abbrev DitheredClausesMet (i : Instr) (c : State → Nat) (a b : BitVec 16) : Prop :=
  ((at00 0 3 0).ports.srcClass = 3 ∧ completes i (at00 0 3 0)) ∧
  (∀ k : BitVec 2, k ≠ 3 → (at00 0 k 0).ports.dst1bit = 0 ∧ (at00 0 k 0).ports.srcClass = k ∧ completes i (at00 0 k 0)) ∧
  (∀ k : BitVec 2, k ≠ 3 → (at00 1 k a).ports.dst1bit = 1 ∧ (at00 1 k a).ports.srcClass = k ∧ completes i (at00 1 k a)) ∧
  ditherEntry (at00 1 2 a) < levelOf (c (at00 1 2 a)) ∧ ¬ ditherEntry (at00 1 2 b) < levelOf (c (at00 1 2 b))

/-- Every clause of `SourceXorMode`. -/
abbrev XorClausesMet (i : Instr) : Prop :=
  ((at00 0 3 0).ports.srcClass = 3 ∧ completes i (at00 0 3 0)) ∧
  (∀ k : BitVec 2, k ≠ 3 → (at00 0 k 0).ports.srcClass ≠ 3 ∧ (at00 0 k 0).ports.dst1bit = 0 ∧ completes i (at00 0 k 0)) ∧
  (∀ k : BitVec 2, k ≠ 3 → (at00 1 k 0).ports.srcClass ≠ 3 ∧ (at00 1 k 0).ports.dst1bit = 1 ∧ completes i (at00 1 k 0))

/-- Every clause of `PatternMode` and `PatternXorMode`: both depths, both pattern bits. -/
abbrev PatternClausesMet (i : Instr) : Prop :=
  ∀ one : Bit, (at00 one 3 0).ports.dst1bit = one ∧ tileBit (at00 one 3 0) = true ∧ completes i (at00 one 3 0) ∧
    tileBit (at10 one) = false ∧ completes i (at10 one)

/-- Both depths, for an arithmetic mode. -/
abbrev DepthClausesMet (i : Instr) : Prop :=
  ∀ one : Bit, (at00 one 0 0).ports.dst1bit = one ∧ completes i (at00 one 0 0)

theorem witness_DecodeAfterEncode : Instr.wellFormed .reject .srcCopy = true ∧
    Instr.wellFormed .hiliteFirst .hiliteNotPatBic = true ∧ Instr.wellFormed .ditherFirst .ditherSrcOr = true := by decide

theorem witness_DecodeExactlyTheEncodedWords : decode .reject 0x4F = .ok .ditherNotPatBic ∧
    Instr.mode .ditherNotPatBic ≠ none ∧ decode .reject 0x2000FFFF = .ok .ldpatSeed ∧
    (0x2000FFFF : Word).extractLsb' 16 16 = (encode .ldpatSeed).extractLsb' 16 16 := by decide

theorem witness_ModifierCodes :
    decodeMode .ditherFirst 13 = some (.bool .pattern true .or .none) ∧
    decodeMode .hiliteFirst 15 = some (.bool .pattern true .bic .none) ∧
    decodeMode .reject 2 = some (.bool .source false .xor .none) ∧
    decodeMode .ditherFirst 0 = some (.bool .source false .copy .none) ∧
    [82, 96, 99, 103, 113].map (decode .hiliteFirst) = List.replicate 5 (.error .unsupportedMode) := by decide

/-- The first code below and the first above the two that the policy decides. -/
theorem witness_OverlapPolicyDecides : (63 : Word) ≠ 64 ∧ (66 : Word) ≠ 65 ∧
    decode .hiliteFirst 63 = .ok .hiliteNotPatOr ∧ decode .reject 66 = .ok .ditherSrcXor := by decide

theorem witness_UnsupportedModeCodes :
    [0, 15, 16, 31, 32, 39, 40, 48, 49, 50, 79, 80, 65535].map (fun w : Word => (w.extractLsb' 16 16).toNat) =
      List.replicate 13 0 ∧
    [16, 31, 40, 48, 64, 65, 80, 65535].map (decode .reject) = List.replicate 8 (.error .unsupportedMode) := by decide

theorem witness_ReservedFieldIsIllegal :
    (∃ s : State, s.script = [.command { Ports.zero with cw := 0x10010000 }] ∧
      (0x10010000 : Word).extractLsb' 16 13 ≠ 0) ∧
    (0x20000001 : Word).extractLsb' 16 13 = 0 ∧ ((0x20000001 : Word).extractLsb' 29 3).toNat = 1 ∧
    (0x8000FFFF : Word).extractLsb' 16 13 = 0 ∧ ((0x8000FFFF : Word).extractLsb' 29 3).toNat = 4 :=
  ⟨⟨{ mk 0 Ports.zero with script := [.command { Ports.zero with cw := 0x10010000 }] }, rfl, by decide⟩, by decide⟩

theorem witness_CompositeRunsItsDecodedMode : decode .ditherFirst 0x31 = .ok .grayishText ∧
    (0x31 : Word).extractLsb' 29 3 = 0 ∧ Instr.mode .grayishText = some .text := by decide

/-- A machine that is given the commands `qs` on the pattern `g`. -/
def given (g : Grid) (qs : List Ports) : State := { mk g Ports.zero with script := qs.map HostEvent.command }

/-- The status and pattern after the first of the events. -/
def first (s : State) : Option (BitVec 3 × Grid) :=
  match step s with
  | .next t => t.rsp.map fun r => (r.status, t.pat)
  | .fault _ => none
  | .refused _ => none

theorem witness_StepRunsPresentedCommand :
    (given 5 [{ Ports.zero with cw := 0x40000000, arg := 1 }]).script =
      [.command { Ports.zero with cw := 0x40000000, arg := 1 }] ∧
    decode (given 5 []).cfg.overlap 0x40000000 = .ok .ldpatSolid := by decide

theorem witness_StepWithoutCommand : (mk 5 Ports.zero).script = [] ∧
    { mk 5 Ports.zero with script := [.reset] }.script = [HostEvent.reset] := by decide

theorem witness_InvKeptByStep : State.Inv (given 5 [{ Ports.zero with cw := 0x40000000, arg := 1 }]) ∧
    first (given 5 [{ Ports.zero with cw := 0x40000000, arg := 1 }]) = some (0, 0xFFFFFFFFFFFFFFFF) :=
  ⟨⟨by decide, by decide, fun _ h => by cases h⟩, by decide⟩

/-- Two states that differ in what came before and in what comes after. -/
theorem witness_ResponseFromPatAndPortsOnly :
    (given 5 [Ports.zero]).pat = { given 5 [Ports.zero, DC1] with ports := DC1, draws := 7 }.pat ∧
    (given 5 [Ports.zero]).cfg = { given 5 [Ports.zero, DC1] with ports := DC1, draws := 7 }.cfg := by decide

theorem witness_IgnoredBitsDoNotMatter : lowBit 0xFFFE = lowBit 0 ∧ (8 : Word).toNat % 8 = (0 : Word).toNat % 8 ∧
    (0xFFFFFFF8 : Word).toNat % 8 = 0 ∧ (∀ one : Bit, (at00 one 0 0).ports.dst1bit = one) ∧
    Instr.mode .srcCopy ≠ none ∧ completes .srcCopy (at00 0 0 0) ∧ completes .srcCopy (at00 1 0 0) := by decide

/-- A load changes `PAT`, and so does a reset whose draw is not what `PAT` holds. -/
theorem witness_PatWrittenOnlyByLoadsAndReset :
    first (given 5 [{ Ports.zero with cw := 0x40000000, arg := 1 }]) = some (0, 0xFFFFFFFFFFFFFFFF) ∧
    ∃ s t : State, s.script = [.reset] ∧ step s = .next t ∧ t.pat ≠ s.pat := by
  refine ⟨by decide, { mk (~~~ Config.patReset 1) Ports.zero with script := [.reset] }, _, rfl, rfl, ?_⟩
  show Config.patReset 1 ≠ ~~~ Config.patReset 1
  intro h
  have := congrArg (fun g : Grid => g.getLsbD 0) h
  simp at this

theorem witness_PatReadOnlyByPatternModes : Instr.srcCopy ≠ .sample ∧ Instr.mode .srcCopy = some (.bool .source false .copy .none) ∧
    (Mode.bool .source false .copy .none).category ≠ .boolPat ∧ Instr.mode .ldpatSeed = none := by decide

theorem witness_StatusSevenNeverDriven : first (given 5 [{ Ports.zero with cw := 0xE0000000 }]) = some (6, 5) := by decide

theorem witness_ErrorResponseWritesNothing :
    first (given 5 [{ Ports.zero with cw := 0x60000000, arg := 5 }]) = some (5, 5) := by decide

/-- Each status code, and the first error of 60_exceptions.md R403 that gives it. -/
theorem witness_StatusIsFirstError :
    [{ Ports.zero with cw := 0 }, { Ports.zero with cw := 99, srcClass := 3 }, { Ports.zero with cw := 2 },
      { Ports.zero with cw := 32, srcClass := 3, weight := 65536 }, { Ports.zero with cw := 2, srcClass := 3 },
      { Ports.zero with cw := 0x60000000, arg := 5 }, { Ports.zero with cw := 0x60010000, arg := 5 }].map
      (firstError .ditherFirst) = [0, 1, 2, 3, 4, 5, 6] ∧
    first (given 5 [{ Ports.zero with cw := 2, srcClass := 3 }]) = some (4, 5) := by decide

/-- A command word with its `arg`. -/
abbrev loadOf (cw arg : Word) : Ports := { Ports.zero with cw := cw, arg := arg }

/-- SAMPLE at (2, 1), and PAT_COPY there with fg=K, bg=W. -/
abbrev sampleAt : Ports := { Ports.zero with cw := 0x80000000, x := 2, y := 1 }

abbrev patCopyAt : Ports := { Ports.zero with cw := 0x00000008, x := 2, y := 1, fg := K, bg := W }

/-- The hypotheses of the statement at the block that holds `old` and is given `q` and then `q'`. -/
abbrev LoadClauseMet (old g : Grid) (q q' : Ports) (i : Instr) : Prop :=
  (given old [q, q']).script = [.command q, .command q'] ∧ decode (given old [q, q']).cfg.overlap q'.cw = .ok i ∧
    LoadLeaves (given old [q, q']).cfg.overlap q (given old [q, q']).pat g

/-- Each way of loading and of failing to load, before each of the two readers the statement spells out, with the indices at the
ends of the table and just past it. -/
theorem witness_SampleSeesLastLoad :
    ∀ r ∈ [(sampleAt, Instr.sample), (patCopyAt, Instr.patCopy)],
      ∀ c ∈ [(loadOf 0x20000000 0x88228822, (0x8822882288228822 : Grid)), (loadOf 0x40000000 1, 0xFFFFFFFFFFFFFFFF),
          (loadOf 0x40000000 2, 0), (loadOf 0x60000000 0, 0), (loadOf 0x60000000 4, 0x77DD77DD77DD77DD),
          (loadOf 0x60000000 5, 5), (loadOf 0x20010000 0x88228822, 5)],
        LoadClauseMet 5 c.2 c.1 r.1 r.2 := by
  unfold LoadClauseMet LoadLeaves
  decide

/-- The example of 44_pattern_tile_lut.md R310 (cell (2, 1) of the light-gray seed is 1), and the presets 1 and 0 there. -/
theorem test_cellSet : cellSet 0x8822882288228822 sampleAt = true ∧ cellSet 0xFFFFFFFFFFFFFFFF sampleAt = true ∧
    cellSet 0 sampleAt = false := by decide

theorem witness_ErrorLeavesNoTrace :
    first (given 5 [{ Ports.zero with cw := 0x63 }, { Ports.zero with cw := 0x80000000 }]) = some (1, 5) := by decide

theorem witness_WeightedMixLaws : [0, 1, 32768, 65535].all (fun c => c ≤ 65535) = true ∧
    redOf (mix F2 B2 16384) = 15750 ∧ mix F2 B2 0 = F2 ∧ mix F2 B2 65535 = B2 := by decide

theorem witness_ProjectionCounts : bayerMatrix.isPermutation = true ∧ levelOf 0 = 0 ∧ levelOf 32768 = 32 ∧
    levelOf 65535 = 64 ∧ project bayerMatrix 32768 0 0 false = .black ∧ project bayerMatrix 32767 0 0 false = .white ∧
    project bayerMatrix 512 0 0 true = .black ∧ project bayerMatrix 511 0 0 true = .white := by decide

theorem witness_SrcCopyResult : SourceClausesMet .srcCopy := by decide

theorem witness_SrcOrResult : SourceClausesMet .srcOr := by decide

theorem witness_SrcXorResult : XorClausesMet .srcXor := by decide

theorem witness_SrcBicResult : SourceClausesMet .srcBic := by decide

theorem witness_NotSrcCopyResult : SourceClausesMet .notSrcCopy := by decide

theorem witness_NotSrcOrResult : SourceClausesMet .notSrcOr := by decide

theorem witness_NotSrcXorResult : XorClausesMet .notSrcXor := by decide

theorem witness_NotSrcBicResult : SourceClausesMet .notSrcBic := by decide

theorem witness_PatCopyResults : PatternClausesMet .patCopy ∧ PatternClausesMet .notPatCopy := by decide

theorem witness_PatOrResults : PatternClausesMet .patOr ∧ PatternClausesMet .notPatOr := by decide

theorem witness_PatXorResults : PatternClausesMet .patXor ∧ PatternClausesMet .notPatXor := by decide

theorem witness_PatBicResults : PatternClausesMet .patBic ∧ PatternClausesMet .notPatBic := by decide

/-- The weights at both ends of the range and just outside it. -/
theorem witness_BlendResult : DepthClausesMet .blend ∧ (0 : Word).toInt = 0 ∧ (65535 : Word).toInt = 65535 ∧
    65535 < (65536 : Word).toInt ∧ (0xFFFFFFFF : Word).toInt < 0 ∧ blendAt 65535 = some (0xEA6003E87530, 0) ∧
    blendAt 65536 = some (0x27100BB87530, 3) := by decide

theorem witness_AddPinAndSubPinResults : DepthClausesMet .addPin ∧ DepthClausesMet .subPin := by decide

theorem witness_AddOverResult : DepthClausesMet .addOver := by decide

theorem witness_SubOverResult : DepthClausesMet .subOver := by decide

theorem witness_TransparentResult : DepthClausesMet .transparent := by decide

theorem witness_AddMaxAndAddMinResults : DepthClausesMet .addMax ∧ DepthClausesMet .addMin := by decide

theorem witness_ReversionTable : (at00 1 3 0).ports.dst1bit = 1 ∧ completes .blend (at00 1 3 0) ∧
    completes .transparent (at00 1 3 0) := by decide

theorem witness_ArithmeticLaws : (65535 : Nat) ≤ 65535 ∧ arithUnit .addOver F2 B2 0 0 ≠ B2 ∧
    arithUnit .subOver F2 (arithUnit .addOver F2 B2 0 0) 0 0 = B2 := by decide

theorem witness_GrayishTextResult : SourceClausesMet .grayishText ∧ coverage (at00 1 2 32767) < 32768 := by decide

theorem witness_HighlightSourceResults : SourceClausesMet .hiliteSrcCopy ∧ SourceClausesMet .hiliteSrcOr ∧
    XorClausesMet .hiliteSrcXor ∧ SourceClausesMet .hiliteSrcBic ∧ SourceClausesMet .hiliteNotSrcCopy ∧
    SourceClausesMet .hiliteNotSrcOr ∧ XorClausesMet .hiliteNotSrcXor ∧ SourceClausesMet .hiliteNotSrcBic := by
  refine ⟨?_, ?_, ?_, ?_, ?_, ?_, ?_, ?_⟩ <;> decide

theorem witness_HighlightPatternResults : PatternClausesMet .hilitePatCopy ∧ PatternClausesMet .hilitePatOr ∧
    PatternClausesMet .hilitePatXor ∧ PatternClausesMet .hilitePatBic ∧ PatternClausesMet .hiliteNotPatCopy ∧
    PatternClausesMet .hiliteNotPatOr ∧ PatternClausesMet .hiliteNotPatXor ∧ PatternClausesMet .hiliteNotPatBic := by
  refine ⟨?_, ?_, ?_, ?_, ?_, ?_, ?_, ?_⟩ <;> decide

/-- One state for each of the four cases in which the modifier changes nothing, and one on each side of the dither threshold, plain
and inverted, where it does. -/
theorem witness_DitherModifierResult : (at00 0 2 0).ports.dst1bit = 0 ∧ (at00 1 1 0).ports.srcClass ≠ 2 ∧
    completes (instrOfMode (.bool .pattern false .copy .dither)) (at00 1 2 0) ∧
    completes (instrOfMode (.bool .source false .xor .dither)) (at00 1 2 0) ∧
    ((at00 1 2 512).ports.dst1bit = 1 ∧ (at00 1 2 512).ports.srcClass = 2 ∧ Family.copy ≠ .xor) ∧
    ditherEntry (at00 1 2 512) < levelOf 512 ∧ ¬ ditherEntry (at00 1 2 511) < levelOf 511 ∧
    ditherEntry (at00 1 2 65023) < levelOf (65535 - 65023) := by decide

theorem witness_DitherSourceResults : DitheredClausesMet .ditherSrcCopy coverage 512 511 ∧
    DitheredClausesMet .ditherSrcOr coverage 512 511 ∧ XorClausesMet .ditherSrcXor ∧
    DitheredClausesMet .ditherSrcBic coverage 512 511 ∧
    DitheredClausesMet .ditherNotSrcCopy (fun s => 65535 - coverage s) 65023 65024 ∧
    DitheredClausesMet .ditherNotSrcOr (fun s => 65535 - coverage s) 65023 65024 ∧ XorClausesMet .ditherNotSrcXor ∧
    DitheredClausesMet .ditherNotSrcBic (fun s => 65535 - coverage s) 65023 65024 := by
  refine ⟨?_, ?_, ?_, ?_, ?_, ?_, ?_, ?_⟩ <;> decide

theorem witness_DitherPatternResults : PatternClausesMet .ditherPatCopy ∧ PatternClausesMet .ditherPatOr ∧
    PatternClausesMet .ditherPatXor ∧ PatternClausesMet .ditherPatBic ∧ PatternClausesMet .ditherNotPatCopy ∧
    PatternClausesMet .ditherNotPatOr ∧ PatternClausesMet .ditherNotPatXor ∧ PatternClausesMet .ditherNotPatBic := by
  refine ⟨?_, ?_, ?_, ?_, ?_, ?_, ?_, ?_⟩ <;> decide

theorem witness_LdpatSolidResult : (1 : Word).getLsbD 0 = true ∧ (2 : Word).getLsbD 0 = false ∧
    loaded 0x40000000 0xFFFFFFFE = some (0, 0) := by decide

theorem witness_LdpatPresetResult : 4 < (5 : Word).toNat ∧ ¬ 4 < (4 : Word).toNat ∧
    loaded 0x60000000 4 = some (0, 0x77DD77DD77DD77DD) ∧ loaded 0x60000000 5 = some (5, 5) := by decide

end Sys2Proof.Tests
end

