-- ==== Sys2Proof/Proofs/Encoding.lean ====
section
/-! PROOFS. The encoding (30_encoding.md): what the fields of a word say to the decoder, what `DecodeMode` answers on each range of
codes, and the statements about codes, the overlap policy and the reserved field. -/

open Sys2Proof.Machine Sys2Proof.Spec

namespace Sys2Proof

/-! ### The decoder, by the fields of a word -/

theorem decode_of_rsvField_ne_zero (p : OverlapPolicy) {w : Word} (hr : rsvField w ≠ 0) :
    decode p w = .error .illegalCommand := by
  rw [decode, if_pos hr]

theorem decode_of_decodeMode_some {p : OverlapPolicy} {w : Word} {md : Mode} (hr : rsvField w = 0) (hc : cmdField w = 0)
    (hm : decodeMode p (modeField w).toNat = some md) : decode p w = .ok (instrOfMode md) := by
  simp [decode, hr, hc, hm]

theorem decode_of_decodeMode_none {p : OverlapPolicy} {w : Word} (hr : rsvField w = 0) (hc : cmdField w = 0)
    (hm : decodeMode p (modeField w).toNat = none) : decode p w = .error .unsupportedMode := by
  simp [decode, hr, hc, hm]

/-- Commands 1 to 4 with a zero reserved field always decode (30_encoding.md R71, R84). -/
theorem decode_ok_of_pattern_command (p : OverlapPolicy) {w : Word} (hr : rsvField w = 0) (h1 : 1 ≤ (cmdField w).toNat)
    (h4 : (cmdField w).toNat ≤ 4) : ∃ i, decode p w = .ok i := by
  rcases decode_cases p w with ⟨hr', _⟩ | ⟨_, hc, _⟩ | ⟨_, hc, _⟩ | ⟨_, _, hd⟩ | ⟨_, _, hd⟩ | ⟨_, _, hd⟩ | ⟨_, _, hd⟩ | ⟨_, hc, _⟩
  · exact absurd hr hr'
  · simp [hc] at h1
  · simp [hc] at h1
  · exact ⟨_, hd⟩
  · exact ⟨_, hd⟩
  · exact ⟨_, hd⟩
  · exact ⟨_, hd⟩
  · omega

/-- The decoder reads the mode field, and the policy, of a COMPOSITE alone (30_encoding.md R71, R72). -/
theorem decode_congr {p p' : OverlapPolicy} {w w' : Word} (hr : rsvField w = rsvField w') (hc : cmdField w = cmdField w')
    (hm : rsvField w = 0 → cmdField w = 0 → decodeMode p (modeField w).toNat = decodeMode p' (modeField w').toNat) :
    decode p w = decode p' w' := by
  by_cases h0 : rsvField w = 0 ∧ cmdField w = 0
  · obtain ⟨hr0, hc0⟩ := h0
    simp only [decode, ← hr, ← hc, hm hr0 hc0]
  · rw [decode, decode, ← hr, ← hc]
    split
    · rfl
    · next hr0 =>
      split
      · next hc0 => exact absurd ⟨not_not.mp hr0, BitVec.toFin_inj.mp hc0⟩ h0
      all_goals rfl

/-- A word raises `UnsupportedMode` exactly as a COMPOSITE of an INVALID code (30_encoding.md R82, R84). -/
theorem decode_eq_unsupportedMode_iff (p : OverlapPolicy) (w : Word) :
    decode p w = .error .unsupportedMode ↔
      rsvField w = 0 ∧ cmdField w = 0 ∧ decodeMode p (modeField w).toNat = none := by
  refine ⟨fun h => ?_, fun ⟨hr, hc, hm⟩ => decode_of_decodeMode_none hr hc hm⟩
  rcases decode_cases p w with ⟨_, hd⟩ | ⟨_, _, _, _, hd⟩ | ⟨hr, hc, hm, _⟩ | ⟨_, _, hd⟩ | ⟨_, _, hd⟩ | ⟨_, _, hd⟩ | ⟨_, _, hd⟩ |
    ⟨_, _, hd⟩
  case inr.inr.inl => exact ⟨hr, hc, hm⟩
  all_goals simp [hd] at h

/-! ### A word below 65536 is a mode code -/

/-- A word with a zero upper half has cmd 0, a zero reserved field, and is its mode code (30_encoding.md R86). -/
theorem fields_of_upper_zero {w : Word} (h : w.extractLsb' 16 16 = 0) :
    rsvField w = 0 ∧ cmdField w = 0 ∧ (modeField w).toNat = w.toNat := by
  have hlt : w.toNat < 2 ^ 16 := by
    have hu := congrArg BitVec.toNat h
    have hw := w.isLt
    simp only [BitVec.extractLsb'_toNat, Nat.shiftRight_eq_div_pow, BitVec.ofNat_eq_ofNat, BitVec.toNat_ofNat] at hu
    omega
  refine ⟨BitVec.eq_of_toNat_eq ?_, BitVec.eq_of_toNat_eq ?_, ?_⟩
  · rw [rsvField_toNat, Nat.div_eq_of_lt hlt]; rfl
  · rw [cmdField_toNat, Nat.div_eq_of_lt (by omega)]; rfl
  · rw [modeField_toNat, Nat.mod_eq_of_lt hlt]

theorem fields_ofNat {m : Nat} (h : m < 65536) :
    rsvField (BitVec.ofNat 32 m) = 0 ∧ cmdField (BitVec.ofNat 32 m) = 0 ∧ (modeField (BitVec.ofNat 32 m)).toNat = m := by
  have hm : (BitVec.ofNat 32 m).toNat = m := by rw [BitVec.toNat_ofNat, Nat.mod_eq_of_lt (by omega)]
  have hu : (BitVec.ofNat 32 m).extractLsb' 16 16 = 0 := by
    apply BitVec.eq_of_toNat_eq
    simp only [BitVec.extractLsb'_toNat, Nat.shiftRight_eq_div_pow, hm, Nat.div_eq_of_lt h]
    rfl
  simpa only [hm] using fields_of_upper_zero hu

theorem decode_ofNat_of_some {p : OverlapPolicy} {m : Nat} {md : Mode} (hm : decodeMode p m = some md) :
    decode p (BitVec.ofNat 32 m) = .ok (instrOfMode md) := by
  have hle := decodeMode_le hm
  obtain ⟨hr, hc, hf⟩ := fields_ofNat (m := m) (by omega)
  exact decode_of_decodeMode_some hr hc (by rw [hf, hm])

theorem decode_ofNat_of_none {p : OverlapPolicy} {m : Nat} (h : m < 65536) (hm : decodeMode p m = none) :
    decode p (BitVec.ofNat 32 m) = .error .unsupportedMode := by
  obtain ⟨hr, hc, hf⟩ := fields_ofNat h
  exact decode_of_decodeMode_none hr hc (by rw [hf, hm])

/-! ### `DecodeMode`, range by range -/

theorem decodeMode_base (p : OverlapPolicy) (b : BitVec 4) : decodeMode p b.toNat = some (baseMode b .none) := by
  have hb := b.isLt
  unfold decodeMode
  rw [if_pos (by omega), BitVec.ofNat_toNat, BitVec.setWidth_eq]

theorem decodeMode_arith (p : OverlapPolicy) (a : BitVec 3) : decodeMode p (a.toNat + 32) = some (.arith (arithOpOf a)) := by
  have ha := a.isLt
  unfold decodeMode
  rw [if_neg (by omega), if_pos (by omega), Nat.add_sub_cancel, BitVec.ofNat_toNat, BitVec.setWidth_eq]

theorem decodeMode_text (p : OverlapPolicy) : decodeMode p 49 = some .text := rfl

/-- 30_encoding.md R78, R80: base code b of modifier HILITE is b + 50, and the policy has a say on b = 14 and 15 alone. -/
theorem decodeMode_hilite {p : OverlapPolicy} {b : BitVec 4} (h : b.toNat ≤ 13 ∨ p = .hiliteFirst) :
    decodeMode p (b.toNat + 50) = some (baseMode b .hilite) := by
  have hb := b.isLt
  unfold decodeMode
  rw [if_neg (by omega), if_neg (by omega), if_neg (by omega)]
  split
  · obtain rfl : p = .hiliteFirst := h.resolve_left (by omega)
    simp
  · rw [if_pos (by omega), Nat.add_sub_cancel, BitVec.ofNat_toNat, BitVec.setWidth_eq]

/-- 30_encoding.md R79, R80: base code b of modifier DITHER is b + 64, and the policy has a say on b = 0 and 1 alone. -/
theorem decodeMode_dither {p : OverlapPolicy} {b : BitVec 4} (h : 2 ≤ b.toNat ∨ p = .ditherFirst) :
    decodeMode p (b.toNat + 64) = some (baseMode b .dither) := by
  have hb := b.isLt
  unfold decodeMode
  rw [if_neg (by omega), if_neg (by omega), if_neg (by omega)]
  split
  · obtain rfl : p = .ditherFirst := h.resolve_left (by omega)
    simp
  · rw [if_neg (by omega), if_pos (by omega), Nat.add_sub_cancel, BitVec.ofNat_toNat, BitVec.setWidth_eq]

/-- The INVALID codes (30_encoding.md R82). -/
theorem decodeMode_eq_none_iff (p : OverlapPolicy) (m : Nat) :
    decodeMode p m = none ↔
      (16 ≤ m ∧ m ≤ 31) ∨ (40 ≤ m ∧ m ≤ 48) ∨ 80 ≤ m ∨ (p = .reject ∧ (m = 64 ∨ m = 65)) := by
  by_cases h : m = 64 ∨ m = 65
  · cases p <;> rcases h with rfl | rfl <;> decide
  · unfold decodeMode
    rw [if_neg h]
    split_ifs <;> simp only [true_iff, false_iff] <;> omega

/-- The policy is read on codes 64 and 65 alone (30_encoding.md R80). -/
theorem decodeMode_policy_irrelevant (p p' : OverlapPolicy) {m : Nat} (h64 : m ≠ 64) (h65 : m ≠ 65) :
    decodeMode p m = decodeMode p' m := by
  have h : ¬ (m = 64 ∨ m = 65) := by omega
  simp only [decodeMode, if_neg h]

/-- A base mode's operand, inversion and family do not depend on its modifier (30_encoding.md R81). -/
theorem baseMode_withModifier {b : BitVec 4} {o : BoolOperand} {inv : Bool} {fam : Family} {mod : Modifier}
    (h : baseMode b mod = .bool o inv fam mod) (mod' : Modifier) : baseMode b mod' = .bool o inv fam mod' := by
  cases h; rfl

/-! ### Only well-formed instructions are decoded -/

/-- Whatever `DecodeMode` answers has a code under that policy (30_encoding.md R80). No code above 79 decodes, so this is a fact
about a table of 80 codes. -/
theorem wellFormed_of_decodeMode {p : OverlapPolicy} {m : Nat} {md : Mode} (h : decodeMode p m = some md) :
    (instrOfMode md).wellFormed p = true := by
  have table : ∀ m < 80, ∀ md ∈ decodeMode p m, (instrOfMode md).wellFormed p = true := by
    cases p <;> decide
  have hm := decodeMode_le h
  exact table m (by omega) md h

theorem wellFormed_of_decode {p : OverlapPolicy} {w : Word} {i : Instr} (h : decode p w = .ok i) : i.wellFormed p = true := by
  rcases decode_cases p w with ⟨_, hd⟩ | ⟨_, _, md, hm, hd⟩ | ⟨_, _, _, hd⟩ | ⟨_, _, hd⟩ | ⟨_, _, hd⟩ | ⟨_, _, hd⟩ | ⟨_, _, hd⟩ |
    ⟨_, _, hd⟩ <;> rw [hd] at h <;> cases h
  · exact wellFormed_of_decodeMode hm
  all_goals rfl

/-- An instruction that the policy passes over has no word (30_encoding.md R80). -/
theorem decode_ne_ok_of_not_wellFormed {p : OverlapPolicy} {i : Instr} (hi : i.wellFormed p = false) (w : Word) :
    decode p w ≠ .ok i := fun h =>
  Bool.false_ne_true (hi.symm.trans (wellFormed_of_decode h))

/-! ### The mode field of a word replaced -/

theorem toNat_replaceMode (w : Word) (m : BitVec 16) :
    BitVec.toNat (w.extractLsb' 16 16 ++ m : Word) = w.toNat / 2 ^ 16 * 2 ^ 16 + m.toNat := by
  have hw := w.isLt
  have happ : BitVec.toNat (w.extractLsb' 16 16 ++ m : Word) = (w.extractLsb' 16 16).toNat <<< 16 ||| m.toNat :=
    BitVec.toNat_append ..
  rw [happ, ← Nat.shiftLeft_add_eq_or_of_lt m.isLt, BitVec.extractLsb'_toNat, Nat.shiftRight_eq_div_pow, Nat.shiftLeft_eq,
    Nat.mod_eq_of_lt (by omega)]

theorem rsvField_replaceMode (w : Word) (m : BitVec 16) : rsvField (w.extractLsb' 16 16 ++ m) = rsvField w := by
  have hm := m.isLt
  apply BitVec.eq_of_toNat_eq
  rw [rsvField_toNat, rsvField_toNat, toNat_replaceMode]
  omega

theorem cmdField_replaceMode (w : Word) (m : BitVec 16) : cmdField (w.extractLsb' 16 16 ++ m) = cmdField w := by
  have hm := m.isLt
  apply BitVec.eq_of_toNat_eq
  rw [cmdField_toNat, cmdField_toNat, toNat_replaceMode]
  omega

/-- Commands 1 to 7 ignore the mode field (30_encoding.md R72). -/
theorem decode_replaceMode (p : OverlapPolicy) {w : Word} (hc : cmdField w ≠ 0) (m : BitVec 16) :
    decode p (w.extractLsb' 16 16 ++ m) = decode p w := by
  refine decode_congr (rsvField_replaceMode w m) (cmdField_replaceMode w m) fun _ h0 => ?_
  exact absurd (cmdField_replaceMode w m ▸ h0) hc

/-! ### A step with a word that does not decode -/

theorem step_of_decode_error {s : State} {q : Ports} {rest : List HostEvent} {e : ErrorKind} (hs : s.script = .command q :: rest)
    (hd : decode s.cfg.overlap q.cw = .error e) : step s = .next (raise e (present q rest s)) := by
  simp [step, hs, runPresented, hd]

/-! ### The obligations -/

/-- Settles O6: a base code and its two modifier codes are the base mode of the same four bits; an arithmetic or text code plus
an offset lies at 80 or above, where every code is INVALID. -/
theorem modifierCodes : Obligations.ModifierCodes := by
  refine ⟨fun p b o inv fam hb hbase => ?_, fun p a ha => ?_⟩
  · have hn : (BitVec.ofNat 4 b).toNat = b := by rw [BitVec.toNat_ofNat, Nat.mod_eq_of_lt hb]
    have hmode : baseMode (BitVec.ofNat 4 b) .none = .bool o inv fam .none := by
      rw [← hn, decodeMode_base] at hbase
      exact Option.some.inj hbase
    refine ⟨fun h => ?_, fun h => ?_⟩
    · rw [← baseMode_withModifier hmode .hilite, ← decodeMode_hilite (hn.symm ▸ h), hn]
    · rw [← baseMode_withModifier hmode .dither, ← decodeMode_dither (hn.symm ▸ h), hn]
  · have invalid : ∀ m, 80 ≤ m → decodeMode p m = none := fun m hm =>
      (decodeMode_eq_none_iff p m).mpr (.inr (.inr (.inl hm)))
    exact ⟨decode_ofNat_of_none (by omega) (invalid _ (by omega)), decode_ofNat_of_none (by omega) (invalid _ (by omega))⟩

/-- Settles O7: the words 64 and 65 by their codes, the instructions passed over because only well-formed ones are decoded, and
every other word because the policy is read on those two codes alone. -/
theorem overlapPolicyDecides : Obligations.OverlapPolicyDecides := by
  refine ⟨⟨by decide, by decide, fun w => ⟨?_, ?_⟩⟩, ⟨by decide, by decide, fun w => ⟨?_, ?_⟩⟩, ⟨by decide, by decide⟩,
    fun p p' w h64 h65 => ?otherWord⟩
  case otherWord =>
    refine decode_congr rfl rfl fun hr hc => ?_
    have code : ∀ n, (modeField w).toNat = n → w = BitVec.ofNat 32 n := fun n h => h ▸ word_eq_mode hr hc
    exact decodeMode_policy_irrelevant p p' (fun h => h64 (code 64 h)) (fun h => h65 (code 65 h))
  all_goals exact decode_ne_ok_of_not_wellFormed rfl w

/-- Settles O8: a word with a zero upper half is a COMPOSITE of its own value as code. -/
theorem unsupportedModeCodes : Obligations.UnsupportedModeCodes := by
  intro p w hw
  obtain ⟨hr, hc, hm⟩ := fields_of_upper_zero hw
  rw [decode_eq_unsupportedMode_iff, hm, decodeMode_eq_none_iff]
  exact ⟨fun ⟨_, _, h⟩ => h, fun h => ⟨hr, hc, h⟩⟩

/-- Settles O9: the reserved field is checked before anything else, and the mode field is read for a COMPOSITE alone. -/
theorem reservedFieldIsIllegal : Obligations.ReservedFieldIsIllegal := by
  refine ⟨fun s q rest hs hr => step_of_decode_error hs (decode_of_rsvField_ne_zero _ hr), fun p w m hr h1 h4 => ?_⟩
  obtain ⟨i, hi⟩ := decode_ok_of_pattern_command p hr h1 h4
  have hc : cmdField w ≠ 0 := fun h0 => by simp [show w.extractLsb' 29 3 = 0 from h0] at h1
  exact ⟨i, hi, (decode_replaceMode p hc m).trans hi⟩

/-- Settles O4: code b decodes as the base mode of its four bits, and that mode has one instruction. -/
theorem baseModeCodes : Obligations.BaseModeCodes := by
  intro p
  have named : ∀ b : BitVec 4, decode p (BitVec.ofNat 32 b.toNat) = .ok (instrOfMode (baseMode b .none)) := fun b =>
    decode_ofNat_of_some (decodeMode_base p b)
  exact ⟨decodeMode_base p, named 0, named 1, named 2, named 3, named 4, named 5, named 6, named 7, named 8, named 9, named 10,
    named 11, named 12, named 13, named 14, named 15⟩

/-- Settles O5: code 32 + a decodes as the arithmetic mode a, code 49 as the text-only mode, and each mode has one instruction. -/
theorem arithmeticAndTextCodes : Obligations.ArithmeticAndTextCodes := by
  intro p
  have mode := decodeMode_arith p
  have named : ∀ a : BitVec 3, decode p (BitVec.ofNat 32 (a.toNat + 32)) = .ok (instrOfMode (.arith (arithOpOf a))) := fun a =>
    decode_ofNat_of_some (mode a)
  exact ⟨mode 0, mode 1, mode 2, mode 3, mode 4, mode 5, mode 6, mode 7, decodeMode_text p, named 0, named 1, named 2, named 3,
    named 4, named 5, named 6, named 7, decode_ofNat_of_some (decodeMode_text p)⟩

end Sys2Proof
end

