-- ==== Sys2Proof/Proofs/BooleanModes.lean ====
section
/-! PROOFS. The boolean transfer ALU (41_boolean_transfer_alu.md): what a boolean mode answers on each depth, said once for every
family, inversion and modifier, and the statements about codes 0 to 15. -/

open Sys2Proof.Machine Sys2Proof.Spec

namespace Sys2Proof

/-! ### The words of the statements and the operations of the model -/

theorem mix_eq_weighted (a b : Pixel) (c : Nat) : mix a b c = weighted a b c := rfl

/-- Inverting the weight exchanges the ends of a mix (41_boolean_transfer_alu.md R125). -/
theorem mix_invert (a b : Pixel) {c : Nat} (hc : c ≤ 65535) : mix a b (65535 - c) = mix b a c := by
  simp only [mix, lanes, mixChan_invert _ _ _ hc]

theorem oneBit_of_dst1bit_zero {s : State} (h : s.ports.dst1bit = 0) : oneBit s = false := by
  simp [oneBit, h]

theorem oneBit_of_dst1bit_one {s : State} (h : s.ports.dst1bit = 1) : oneBit s = true := by
  simp [oneBit, h]

theorem coverage_le (s : State) : coverage s ≤ 65535 := Nat.le_of_lt_succ s.ports.srcCov.isLt

/-! ### The operand and its sense -/

/-- The port value that presents a class (10_state.md R31). -/
def classCode : OperandClass → BitVec 2
  | .white => 0
  | .black => 1
  | .other => 2

theorem classOf_classCode (k : OperandClass) : classOf (classCode k) = some k := by
  cases k <;> rfl

/-- Only 3 is reserved (10_state.md R31). -/
theorem exists_classCode_of_ne_three {b : BitVec 2} (h : b ≠ 3) : ∃ k, b = classCode k := by
  have values : ∀ b : BitVec 2, b = 0 ∨ b = 1 ∨ b = 2 ∨ b = 3 := by decide
  rcases values b with hb | hb | hb | hb
  · exact ⟨.white, hb⟩
  · exact ⟨.black, hb⟩
  · exact ⟨.other, hb⟩
  · exact absurd hb h

theorem sourceOperand_of_classCode {s : State} {k : OperandClass} (hs : s.ports.srcClass = classCode k) :
    sourceOperand s = some ⟨k, coverage s⟩ := by
  simp only [sourceOperand, hs, classOf_classCode, coverage]

theorem sourceOperand_reserved {s : State} (hs : s.ports.srcClass = 3) : sourceOperand s = none := by
  simp only [sourceOperand, hs]
  rfl

/-- 44_pattern_tile_lut.md R302, R314. -/
theorem patternOperand_eq (s : State) : patternOperand s = ⟨if tileBit s then .black else .white, 0⟩ := by
  simp only [patternOperand, patSample_eq_one]
  rfl

/-- The operand in the sense in which the family table reads it (41_boolean_transfer_alu.md R122). -/
def sensed (inv : Bool) (o : Operand) : Operand := if inv then invertOperand o else o

/-- The coverage of an OTHER operand after inversion (41_boolean_transfer_alu.md R122). -/
def sensedCoverage (inv : Bool) (c : Nat) : Nat := if inv then 65535 - c else c

theorem sensed_other (inv : Bool) (c : Nat) : sensed inv ⟨.other, c⟩ = ⟨.other, sensedCoverage inv c⟩ := by
  cases inv <;> rfl

theorem sensed_ne_other (inv : Bool) {k : OperandClass} (hk : k ≠ .other) (c : Nat) : (sensed inv ⟨k, c⟩).k ≠ .other := by
  cases k
  case other => exact absurd rfl hk
  all_goals cases inv <;> simp [sensed, invertOperand]

/-- The class that counts as BLACK: WHITE where the mode inverts its operand (41_boolean_transfer_alu.md R122). -/
theorem sensed_eq_black_iff (inv : Bool) (o : Operand) :
    (sensed inv o).k = .black ↔ classCode o.k = bif inv then 0 else 1 := by
  obtain ⟨k, c⟩ := o
  cases inv <;> cases k <;> simp [sensed, invertOperand, classCode]

/-- On a 1-bit destination no operand of a family but XOR is OTHER after projection (41_boolean_transfer_alu.md R123). -/
theorem projectOperand_oneBit_ne_other (m : DitherMatrix) {fam : Family} (hx : fam ≠ .xor) (xi yi : BitVec 3) (dith : Bool)
    (o : Operand) : (projectOperand m fam true xi yi dith o).k ≠ .other := by
  by_cases hk : o.k = .other
  · simp [projectOperand, hk, hx, project_ne_other]
  · rwa [projectOperand_known m fam true xi yi dith hk]

/-! ### The family table and the format of the destination -/

@[simp] theorem lowBit_lowBit (p : Pixel) : lowBit (lowBit p) = lowBit p := inFormat_inFormat true p

/-- Inversion touches bit 0 alone (41_boolean_transfer_alu.md R126). -/
theorem lowBit_invertBit (d : Pixel) : lowBit (invertBit d) = lowBit d ^^^ 1 := by
  have hbit : bitOf (invertBit d) = bitOf d ^^^ 1 := BitVec.extractLsb'_xor ..
  calc lowBit (invertBit d) = zextBit (bitOf d ^^^ 1) := congrArg zextBit hbit
    _ = lowBit d ^^^ 1 := (invertBit_zextBit (bitOf d)).symm

/-- Where the table does not mix, reading the operands in the 1-bit format loses nothing of a 1-bit result
(40_mode_selector_mux.md R104). -/
theorem lowBit_familyTable (fam : Family) (o : Operand) (d f bk : Pixel) (h : fam = .xor ∨ o.k ≠ .other) :
    lowBit (familyTable fam o (lowBit d) (lowBit f) (lowBit bk)) = lowBit (familyTable fam o d f bk) := by
  obtain ⟨k, c⟩ := o
  cases fam <;> cases k <;> simp_all [familyTable, lowBit_invertBit]

/-- The cell of the family table for the operand `o`, with the pixels as they stand on the ports; the highlight modifier
exchanges the colours (41_boolean_transfer_alu.md R124, 40_mode_selector_mux.md R105). -/
def familyCell (fam : Family) (mod : Modifier) (s : State) (o : Operand) : Pixel :=
  familyTable fam o s.ports.dstPix (if mod = .hilite then s.ports.bg else s.ports.fg)
    (if mod = .hilite then s.ports.fg else s.ports.bg)

/-- The coverage of a BLACK or WHITE operand is not read (41_boolean_transfer_alu.md R124). -/
theorem familyCell_coverage (fam : Family) (mod : Modifier) (s : State) {k : OperandClass} (hk : k ≠ .other) (c c' : Nat) :
    familyCell fam mod s ⟨k, c⟩ = familyCell fam mod s ⟨k, c'⟩ := by
  cases k
  case other => exact absurd rfl hk
  all_goals cases fam <;> rfl

theorem familyCell_xor (mod : Modifier) (s : State) (o : Operand) :
    familyCell .xor mod s o = if o.k = .black then invertBit s.ports.dstPix else s.ports.dstPix := by
  obtain ⟨k, c⟩ := o
  cases k <;> rfl

/-! ### What a boolean mode answers

For every instruction whose mode is boolean, under each modifier. -/

section BooleanMode

variable {i : Instr} {o : BoolOperand} {inv : Bool} {fam : Family} {mod : Modifier} {s : State} {opd : Operand}

/-- A boolean mode with a readable operand and no depth error answers what the ALU computes (40_mode_selector_mux.md R108). -/
theorem exec_bool (hi : i.mode = some (.bool o inv fam mod)) (ho : boolOperand o s = some opd)
    (hx : fam = .xor → oneBit s = true) :
    exec i s = answers s (inFormat (oneBit s) (familyTable fam
      (projectOperand s.cfg.matrix fam (oneBit s) (coordX s) (coordY s) (mod == .dither) (sensed inv opd))
      (dstOperand s) (foreOperand mod s) (backOperand mod s))) := by
  have hdepth : ¬ (fam = .xor ∧ oneBit s = false) := fun ⟨hf, h0⟩ => Bool.false_ne_true (h0.symm.trans (hx hf))
  rw [exec_of_mode hi, composite, compositePixel_bool]
  simp only [boolPixel, ho, if_neg hdepth]
  rfl

/-- On a colour destination: the cell of the inverted operand. -/
theorem exec_bool_colour (hi : i.mode = some (.bool o inv fam mod)) (hx : fam ≠ .xor) (h0 : s.ports.dst1bit = 0)
    (ho : boolOperand o s = some opd) : exec i s = answers s (familyCell fam mod s (sensed inv opd)) := by
  rw [exec_bool hi ho (absurd · hx), dstOperand, foreOperand, backOperand, oneBit_of_dst1bit_zero h0, projectOperand_colour]
  rfl

/-- On a 1-bit destination: the low bit of the cell of the inverted and projected operand. -/
theorem exec_bool_oneBit (hi : i.mode = some (.bool o inv fam mod)) (h1 : s.ports.dst1bit = 1)
    (ho : boolOperand o s = some opd) :
    exec i s = answers s (lowBit (familyCell fam mod s
      (projectOperand s.cfg.matrix fam true (coordX s) (coordY s) (mod == .dither) (sensed inv opd)))) := by
  have hone := oneBit_of_dst1bit_one h1
  have hknown : fam = .xor ∨ (projectOperand s.cfg.matrix fam true (coordX s) (coordY s) (mod == .dither)
      (sensed inv opd)).k ≠ .other :=
    or_iff_not_imp_left.mpr fun hx => projectOperand_oneBit_ne_other _ hx _ _ _ _
  rw [exec_bool hi ho fun _ => hone, dstOperand, foreOperand, backOperand, hone]
  exact congrArg (answers s) (lowBit_familyTable _ _ _ _ _ hknown)

/-- The reserved class is checked before the depth (60_exceptions.md R403). -/
theorem exec_bool_reserved (hi : i.mode = some (.bool .source inv fam mod)) (h3 : s.ports.srcClass = 3) :
    exec i s = failsWith s 4 := by
  rw [exec_of_mode hi, composite, compositePixel_bool]
  simp only [boolPixel, boolOperand, sourceOperand_reserved h3]
  rfl

/-- Family XOR is undefined on a colour destination, whatever the operand (40_mode_selector_mux.md R106). -/
theorem exec_bool_xor_colour (hi : i.mode = some (.bool o inv .xor mod)) (h0 : s.ports.dst1bit = 0)
    (ho : boolOperand o s = some opd) : exec i s = failsWith s 2 := by
  rw [exec_of_mode hi, composite, compositePixel_bool]
  simp only [boolPixel, ho, oneBit_of_dst1bit_zero h0, and_self, if_true]
  rfl

/-! ### The source modes -/

/-- A BLACK or WHITE source operand on a 1-bit destination is not projected (41_boolean_transfer_alu.md R123). -/
theorem exec_source_oneBit_known (hi : i.mode = some (.bool .source inv fam mod)) (h1 : s.ports.dst1bit = 1)
    {k : OperandClass} (hk : k ≠ .other) (hs : s.ports.srcClass = classCode k) :
    exec i s = answers s (lowBit (familyCell fam mod s (sensed inv ⟨k, coverage s⟩))) := by
  rw [exec_bool_oneBit hi h1 (sourceOperand_of_classCode hs), projectOperand_known _ _ _ _ _ _ (sensed_ne_other inv hk _)]

/-- An OTHER source operand on a 1-bit destination is projected by its coverage after inversion
(41_boolean_transfer_alu.md R122, R123). -/
theorem exec_source_oneBit_other (hi : i.mode = some (.bool .source inv fam mod)) (hx : fam ≠ .xor)
    (h1 : s.ports.dst1bit = 1) (hs : s.ports.srcClass = classCode .other) :
    exec i s = answers s (lowBit (familyCell fam mod s
      ⟨project s.cfg.matrix (sensedCoverage inv (coverage s)) (coordX s) (coordY s) (mod == .dither),
        sensedCoverage inv (coverage s)⟩)) := by
  rw [exec_bool_oneBit hi h1 (sourceOperand_of_classCode hs), sensed_other, projectOperand, if_pos ⟨rfl, rfl, hx⟩]

/-- Projecting at the midpoint after inversion is inverting the class projected before it: inversion exchanges the two sides of
the midpoint (41_boolean_transfer_alu.md R122, R123). -/
theorem project_midpoint_sensed (m : DitherMatrix) (inv : Bool) {c : Nat} (hc : c ≤ 65535) (xi yi : BitVec 3) :
    project m (sensedCoverage inv c) xi yi false = (sensed inv ⟨if 32768 ≤ c then .black else .white, c⟩).k := by
  cases inv
  case false => rfl
  case true =>
    have hside : 65535 - c ≥ 32768 ↔ ¬ 32768 ≤ c := by omega
    by_cases h : 32768 ≤ c <;> simp [project, sensedCoverage, sensed, invertOperand, hside, h]

/-- Without the dither modifier an OTHER source operand on a 1-bit destination answers as the class that the midpoint gives its
coverage as presented (41_boolean_transfer_alu.md R123). -/
theorem exec_source_oneBit_midpoint (hi : i.mode = some (.bool .source inv fam mod)) (hx : fam ≠ .xor) (hm : mod ≠ .dither)
    (h1 : s.ports.dst1bit = 1) (hs : s.ports.srcClass = classCode .other) :
    exec i s = answers s (lowBit (familyCell fam mod s
      (sensed inv ⟨if 32768 ≤ coverage s then .black else .white, coverage s⟩))) := by
  have hne := project_ne_other s.cfg.matrix (sensedCoverage inv (coverage s)) (coordX s) (coordY s) false
  rw [exec_source_oneBit_other hi hx h1 hs, beq_false_of_ne hm, familyCell_coverage fam mod s hne _ (sensed inv _).c,
    project_midpoint_sensed _ _ (coverage_le s)]

/-- A boolean source mode of family COPY, OR or BIC without the dither modifier, by its cells of the family table. -/
theorem sourceMode_of_mode (inv : Bool) (fam : Family) (mod : Modifier) (hi : i.mode = some (.bool .source inv fam mod))
    (hx : fam ≠ .xor) (hm : mod ≠ .dither) :
    SourceMode i s (familyCell fam mod s (sensed inv ⟨.black, coverage s⟩))
      (familyCell fam mod s (sensed inv ⟨.white, coverage s⟩))
      (familyCell fam mod s (sensed inv ⟨.other, coverage s⟩)) := by
  refine ⟨exec_bool_reserved hi, fun h0 => ?colour, fun h1 => ?oneBit⟩
  case colour =>
    have answer (k : OperandClass) (hs : s.ports.srcClass = classCode k) :=
      exec_bool_colour hi hx h0 (sourceOperand_of_classCode hs)
    exact ⟨answer .black, answer .white, answer .other⟩
  case oneBit =>
    refine ⟨exec_source_oneBit_known (k := .black) hi h1 (by decide),
      exec_source_oneBit_known (k := .white) hi h1 (by decide), fun hs => ?_⟩
    rw [exec_source_oneBit_midpoint hi hx hm h1 hs]
    split <;> rfl

/-- A boolean source mode of family XOR: BLACK inverts the destination bit, or WHITE where the mode inverts its operand. -/
theorem sourceXorMode_of_mode (inv : Bool) (mod : Modifier) (hi : i.mode = some (.bool .source inv .xor mod)) :
    SourceXorMode i s (bif inv then 0 else 1) := by
  refine ⟨exec_bool_reserved hi, fun h3 h0 => ?colour, fun h3 h1 => ?oneBit⟩
  all_goals obtain ⟨k, hk⟩ := exists_classCode_of_ne_three h3
  case colour => exact exec_bool_xor_colour hi h0 (sourceOperand_of_classCode hk)
  case oneBit =>
    rw [exec_bool_oneBit hi h1 (sourceOperand_of_classCode hk), projectOperand_xor, familyCell_xor, apply_ite lowBit,
      lowBit_invertBit]
    simp only [sensed_eq_black_iff, hk]

/-! ### The pattern modes -/

/-- A boolean pattern mode of family COPY, OR or BIC, by its cells of the family table; its operand is never projected, so the
dither modifier is not read. -/
theorem patternMode_of_mode (inv : Bool) (fam : Family) (mod : Modifier) (hi : i.mode = some (.bool .pattern inv fam mod))
    (hx : fam ≠ .xor) :
    PatternMode i s (familyCell fam mod s (sensed inv ⟨.black, 0⟩)) (familyCell fam mod s (sensed inv ⟨.white, 0⟩)) := by
  refine ⟨fun h0 => ?_, fun h1 => ?_⟩
  · rw [exec_bool_colour hi hx h0 rfl, patternOperand_eq]
    cases tileBit s <;> rfl
  · have hk : (if tileBit s then .black else .white : OperandClass) ≠ .other := by split <;> decide
    rw [exec_bool_oneBit hi h1 rfl, patternOperand_eq, projectOperand_known _ _ _ _ _ _ (sensed_ne_other inv hk _)]
    cases tileBit s <;> rfl

/-- A boolean pattern mode of family XOR: pattern bit 1 inverts the destination bit, or 0 where the mode inverts its operand. -/
theorem patternXorMode_of_mode (inv : Bool) (mod : Modifier) (hi : i.mode = some (.bool .pattern inv .xor mod)) :
    PatternXorMode i s (!inv) := by
  refine ⟨fun h0 => exec_bool_xor_colour hi h0 rfl, fun h1 => ?_⟩
  have hflips : (sensed inv (patternOperand s)).k = .black ↔ tileBit s = !inv := by
    rw [sensed_eq_black_iff, patternOperand_eq]
    cases inv <;> cases tileBit s <;> decide
  rw [exec_bool_oneBit hi h1 rfl, projectOperand_xor, familyCell_xor, apply_ite lowBit, lowBit_invertBit]
  simp only [hflips]

end BooleanMode

/-- Codes 0 to 15 are the base modes of their four bits (30_encoding.md R75). -/
theorem decode_baseCode (p : OverlapPolicy) (b : BitVec 4) :
    decode p (BitVec.ofNat 32 b.toNat) = .ok (instrOfMode (baseMode b .none)) :=
  decode_ofNat_of_some (decodeMode_base p b)

/-! ### The obligations -/

/-- Settles O30: the cells of the table for COPY. -/
theorem srcCopyResult : Obligations.SrcCopyResult :=
  ⟨(decode_baseCode · 0), fun _ => sourceMode_of_mode false .copy .none rfl (by decide) (by decide)⟩

/-- Settles O31: the cells of the table for OR. -/
theorem srcOrResult : Obligations.SrcOrResult :=
  ⟨(decode_baseCode · 1), fun _ => sourceMode_of_mode false .or .none rfl (by decide) (by decide)⟩

/-- Settles O32: family XOR with the operand as presented. -/
theorem srcXorResult : Obligations.SrcXorResult :=
  ⟨(decode_baseCode · 2), fun _ => sourceXorMode_of_mode false .none rfl⟩

/-- Settles O33: the cells of the table for BIC. -/
theorem srcBicResult : Obligations.SrcBicResult :=
  ⟨(decode_baseCode · 3), fun _ => sourceMode_of_mode false .bic .none rfl (by decide) (by decide)⟩

/-- Settles O34: the cells of the table for COPY, with BLACK and WHITE exchanged; the
inverted weight exchanges the ends of the mix. -/
theorem notSrcCopyResult : Obligations.NotSrcCopyResult := by
  refine ⟨(decode_baseCode · 4), fun s => ?_⟩
  rw [← mix_eq_weighted, ← mix_invert _ _ (coverage_le s)]
  exact sourceMode_of_mode true .copy .none rfl (by decide) (by decide)

/-- Settles O35: the cells of the table for OR, with BLACK and WHITE exchanged. -/
theorem notSrcOrResult : Obligations.NotSrcOrResult :=
  ⟨(decode_baseCode · 5), fun _ => sourceMode_of_mode true .or .none rfl (by decide) (by decide)⟩

/-- Settles O36: family XOR with the operand inverted. -/
theorem notSrcXorResult : Obligations.NotSrcXorResult :=
  ⟨(decode_baseCode · 6), fun _ => sourceXorMode_of_mode true .none rfl⟩

/-- Settles O37: the cells of the table for BIC, with BLACK and WHITE exchanged. -/
theorem notSrcBicResult : Obligations.NotSrcBicResult :=
  ⟨(decode_baseCode · 7), fun _ => sourceMode_of_mode true .bic .none rfl (by decide) (by decide)⟩

/-- Settles O38: the cells of the table for COPY, as they stand and exchanged. -/
theorem patCopyResults : Obligations.PatCopyResults :=
  ⟨fun p => ⟨decode_baseCode p 8, decode_baseCode p 12⟩,
    fun _ => ⟨patternMode_of_mode false .copy .none rfl (by decide), patternMode_of_mode true .copy .none rfl (by decide)⟩⟩

/-- Settles O39: the cells of the table for OR, as they stand and exchanged. -/
theorem patOrResults : Obligations.PatOrResults :=
  ⟨fun p => ⟨decode_baseCode p 9, decode_baseCode p 13⟩,
    fun _ => ⟨patternMode_of_mode false .or .none rfl (by decide), patternMode_of_mode true .or .none rfl (by decide)⟩⟩

/-- Settles O40: family XOR with the pattern bit as it stands and inverted. -/
theorem patXorResults : Obligations.PatXorResults :=
  ⟨fun p => ⟨decode_baseCode p 10, decode_baseCode p 14⟩,
    fun _ => ⟨patternXorMode_of_mode false .none rfl, patternXorMode_of_mode true .none rfl⟩⟩

/-- Settles O41: the cells of the table for BIC, as they stand and exchanged. -/
theorem patBicResults : Obligations.PatBicResults :=
  ⟨fun p => ⟨decode_baseCode p 11, decode_baseCode p 15⟩,
    fun _ => ⟨patternMode_of_mode false .bic .none rfl (by decide), patternMode_of_mode true .bic .none rfl (by decide)⟩⟩

end Sys2Proof
end

