-- ==== Sys2Proof/Proofs/ArithmeticModes.lean ====
section
/-! PROOFS. The arithmetic blend unit (42_arithmetic_blend_unit.md): what an arithmetic mode answers where it does not revert, and
which boolean source mode it is where it does, said once for every operation, and the statements about codes 32 to 39. -/

open Sys2Proof.Machine Sys2Proof.Spec

namespace Sys2Proof

/-! ### The words of the statements and the operations of the model -/

theorem perChannel_eq_lanes (f : Nat → Nat → Nat) (S D : Pixel) : perChannel f S D = lanes f S D := rfl

/-- The exact difference clamped at 0, by the order of the channels (42_arithmetic_blend_unit.md R213). -/
theorem subPinChan_eq_ite (a d : Nat) : subPinChan a d = if a ≤ d then d - a else 0 := by
  rw [subPinChan_eq]
  split <;> omega

/-- A negative difference of two channels wraps once (42_arithmetic_blend_unit.md R205, R216). -/
theorem subOverChan_eq_ite {a d : Nat} (ha : a < 65536) (hd : d < 65536) :
    subOverChan a d = if a ≤ d then d - a else d + 65536 - a := by
  unfold subOverChan
  split <;> omega

/-- A weight that is not negative is its port read as a natural number (30_encoding.md R73). -/
theorem blendWeight_toNat {s : State} (h : 0 ≤ s.ports.weight.toInt) : (blendWeight s).toNat = s.ports.weight.toNat := by
  have hw := s.ports.weight.isLt
  rw [BitVec.toInt_eq_toNat_cond] at h
  rw [blendWeight, BitVec.toInt_eq_toNat_cond]
  split at h <;> omega

/-- Two pixels are one 1-bit operand exactly when their bits 0 agree (10_state.md R30). -/
theorem lowBit_eq_lowBit_iff (p q : Pixel) : lowBit p = lowBit q ↔ p.getLsbD 0 = q.getLsbD 0 := by
  refine ⟨fun h => by simpa [lowBit] using congrArg (·.getLsbD 0) h, fun h => ?_⟩
  have hbit : bitOf p = bitOf q := by
    apply BitVec.eq_of_getLsbD_eq
    intro k hk
    obtain rfl : k = 0 := by omega
    simpa [bitOf] using h
  exact congrArg zextBit hbit

/-- Codes 32 to 39 are the arithmetic modes of their three low bits (30_encoding.md R76). -/
theorem decode_arithCode (p : OverlapPolicy) (a : BitVec 3) :
    decode p (BitVec.ofNat 32 (a.toNat + 32)) = .ok (instrOfMode (.arith (arithOpOf a))) :=
  decode_ofNat_of_some (decodeMode_arith p a)

/-! ### What an arithmetic mode answers -/

section ArithmeticMode

variable {i : Instr} {aop : ArithOp} {s : State}

/-- An arithmetic mode reaches its own unit on a colour destination, and on a 1-bit one where its operation has no entry in the
reversion table (40_mode_selector_mux.md R102). -/
theorem compositePixel_arith_of_not_reverted (hr : oneBit s = true → revertFamily aop = none) :
    compositePixel (.arith aop) s = arithPixel aop s := by
  cases hone : oneBit s with
  | false => exact compositePixel_arith_colour hone aop
  | true => rw [compositePixel_arith_oneBit hone, hr hone]

/-- An arithmetic mode that does not revert answers what its unit computes; BLEND alone asks for a weight in range
(40_mode_selector_mux.md R107, R108). -/
theorem exec_arith (hi : i.mode = some (.arith aop)) (hr : oneBit s = true → revertFamily aop = none)
    (hw : aop = .blend → 0 ≤ s.ports.weight.toInt ∧ s.ports.weight.toInt ≤ 65535) :
    exec i s = answers s (inFormat (oneBit s)
      (arithUnit aop (srcOperand s) (dstOperand s) (backOperand .none s) (blendWeight s).toNat)) := by
  have hweight : ¬ (aop = .blend ∧ (blendWeight s < 0 ∨ blendWeight s > 65535)) := by
    rintro ⟨hb, hout⟩
    obtain ⟨hlo, hhi⟩ := hw hb
    unfold blendWeight at hout
    omega
  rw [exec_of_mode hi, composite, compositePixel_arith_of_not_reverted hr, arithPixel, if_neg hweight]
  rfl

/-- On a colour destination the unit reads the ports as they stand (40_mode_selector_mux.md R104). -/
theorem exec_arith_colour (hi : i.mode = some (.arith aop)) (h0 : s.ports.dst1bit = 0)
    (hw : aop = .blend → 0 ≤ s.ports.weight.toInt ∧ s.ports.weight.toInt ≤ 65535) :
    exec i s = answers s (arithUnit aop s.ports.srcPix s.ports.dstPix s.ports.bg (blendWeight s).toNat) := by
  have hone := oneBit_of_dst1bit_zero h0
  rw [exec_arith hi (fun h1 => absurd (hone.symm.trans h1) Bool.false_ne_true) hw, srcOperand, dstOperand, backOperand, hone]
  rfl

/-- A weight outside its range is the error of BLEND on a colour destination (42_arithmetic_blend_unit.md R210). -/
theorem exec_blend_badWeight (hi : i.mode = some (.arith .blend)) (h0 : s.ports.dst1bit = 0)
    (hw : s.ports.weight.toInt < 0 ∨ 65535 < s.ports.weight.toInt) : exec i s = failsWith s 3 := by
  rw [exec_of_mode hi, composite, compositePixel_arith_colour (oneBit_of_dst1bit_zero h0), arithPixel, if_pos ⟨rfl, hw⟩]
  rfl

/-- An operation whose unit works channel by channel, without a weight, is the per-channel function of its statement as soon as
the two agree on the values a channel can hold (42_arithmetic_blend_unit.md R201). -/
theorem channelMode_of_mode {f g : Nat → Nat → Nat} (hi : i.mode = some (.arith aop)) (hb : aop ≠ .blend)
    (hunit : ∀ S D bk w, arithUnit aop S D bk w = lanes f S D) (hfg : ∀ a d, a < 65536 → d < 65536 → f a d = g a d) :
    ChannelMode i s g := by
  intro h0
  rw [exec_arith_colour hi h0 (absurd · hb), hunit, lanes_congr _ _ hfg, perChannel_eq_lanes]

/-- On a 1-bit destination an arithmetic mode does what the boolean source mode of its entry does, errors alike
(42_arithmetic_blend_unit.md R203). -/
theorem exec_arith_reverts {j : Instr} {fam : Family} (hi : i.mode = some (.arith aop))
    (hj : j.mode = some (.bool .source false fam .none)) (hr : revertFamily aop = some fam) (h1 : s.ports.dst1bit = 1) :
    exec i s = exec j s := by
  have hpixel : compositePixel (.arith aop) s = compositePixel (.bool .source false fam .none) s := by
    rw [compositePixel_arith_oneBit (oneBit_of_dst1bit_one h1), hr, compositePixel_bool]
  rw [exec_of_mode hi, exec_of_mode hj, composite, composite, hpixel]

/-- TRANSPARENT compares the low bits on a 1-bit destination, and never reverts (42_arithmetic_blend_unit.md R203, R214). -/
theorem exec_transparent_oneBit (h1 : s.ports.dst1bit = 1) :
    exec .transparent s = answers s
      (if s.ports.srcPix.getLsbD 0 = s.ports.bg.getLsbD 0 then lowBit s.ports.dstPix else lowBit s.ports.srcPix) := by
  have hpixel : exec .transparent s = answers s (lowBit
      (if lowBit s.ports.srcPix = lowBit s.ports.bg then lowBit s.ports.dstPix else lowBit s.ports.srcPix)) := by
    rw [exec_arith (i := .transparent) rfl (fun _ => rfl) nofun, srcOperand, dstOperand, backOperand, oneBit_of_dst1bit_one h1]
    rfl
  rw [hpixel, apply_ite lowBit, lowBit_lowBit, lowBit_lowBit]
  simp only [lowBit_eq_lowBit_iff]

end ArithmeticMode

/-! ### The obligations -/

/-- Settles O42: in range the weight is its port as a natural number, out of range it is the error, and BLEND reverts to COPY. -/
theorem blendResult : Obligations.BlendResult := by
  refine ⟨(decode_arithCode · 0), fun s => ⟨fun h0 hlo hhi => ?_, exec_blend_badWeight rfl, exec_arith_reverts rfl rfl rfl⟩⟩
  rw [exec_arith_colour (i := .blend) rfl h0 fun _ => ⟨hlo, hhi⟩, blendWeight_toNat hlo]
  rfl

/-- Settles O43: the clamped sum and the clamped difference, and the entries BIC and OR. -/
theorem addPinAndSubPinResults : Obligations.AddPinAndSubPinResults :=
  ⟨fun p => ⟨decode_arithCode p 1, decode_arithCode p 3⟩, fun _ =>
    ⟨channelMode_of_mode rfl (by decide) (fun _ _ _ _ => rfl) fun _ _ _ _ => rfl,
      channelMode_of_mode rfl (by decide) (fun _ _ _ _ => rfl) fun a d _ _ => subPinChan_eq_ite a d,
      fun h1 => ⟨exec_arith_reverts rfl rfl rfl h1, exec_arith_reverts rfl rfl rfl h1⟩⟩⟩

/-- Settles O44: the sum mod 65536, and the entry XOR. -/
theorem addOverResult : Obligations.AddOverResult :=
  ⟨(decode_arithCode · 2), fun _ =>
    ⟨channelMode_of_mode rfl (by decide) (fun _ _ _ _ => rfl) fun _ _ _ _ => rfl, exec_arith_reverts rfl rfl rfl⟩⟩

/-- Settles O45: the remainder of the signed difference is its wrap, as both channels lie below 65536, and the entry XOR. -/
theorem subOverResult : Obligations.SubOverResult :=
  ⟨(decode_arithCode · 6), fun _ =>
    ⟨channelMode_of_mode rfl (by decide) (fun _ _ _ _ => rfl) fun _ _ => subOverChan_eq_ite, exec_arith_reverts rfl rfl rfl⟩⟩

/-- Settles O46: TRANSPARENT reaches its unit on both depths, which reads the operands in the format of the destination. -/
theorem transparentResult : Obligations.TransparentResult :=
  ⟨(decode_arithCode · 4), fun _ => ⟨fun h0 => exec_arith_colour (aop := .transparent) rfl h0 nofun, exec_transparent_oneBit⟩⟩

/-- Settles O47: the maximum and the minimum per channel, and the entries BIC and OR. -/
theorem addMaxAndAddMinResults : Obligations.AddMaxAndAddMinResults :=
  ⟨fun p => ⟨decode_arithCode p 5, decode_arithCode p 7⟩, fun _ =>
    ⟨channelMode_of_mode rfl (by decide) (fun _ _ _ _ => rfl) fun _ _ _ _ => rfl,
      channelMode_of_mode rfl (by decide) (fun _ _ _ _ => rfl) fun _ _ _ _ => rfl,
      fun h1 => ⟨exec_arith_reverts rfl rfl rfl h1, exec_arith_reverts rfl rfl rfl h1⟩⟩⟩

/-- Settles O48: each operation with an entry runs as the source mode of that entry, and TRANSPARENT as itself. -/
theorem reversionTable : Obligations.ReversionTable := by
  intro s h1
  exact ⟨exec_arith_reverts rfl rfl rfl h1, exec_arith_reverts rfl rfl rfl h1, exec_arith_reverts rfl rfl rfl h1,
    exec_arith_reverts rfl rfl rfl h1, exec_arith_reverts rfl rfl rfl h1, exec_arith_reverts rfl rfl rfl h1,
    exec_arith_reverts rfl rfl rfl h1, _, exec_transparent_oneBit h1⟩

end Sys2Proof
end

