-- ==== Sys2Proof/Proofs/DitherAndModifiers.lean ====
section
/-! PROOFS. The text-only mode and the two modifiers (43_dither_and_modifiers.md): what the projection and the matrix say of a tile,
what GRAYISH_TEXT answers, what the highlight and the dither modifier change of a boolean mode, and the statements about codes
49 to 79. -/

open Sys2Proof.Machine Sys2Proof.Spec

namespace Sys2Proof

/-! ### The projection over a tile -/

/-- The ordered-dither threshold in the words of the statements (43_dither_and_modifiers.md R232). -/
theorem project_dither (m : DitherMatrix) (c : Nat) (xi yi : BitVec 3) :
    project m c xi yi true = if threshold m xi yi < levelOf c then .black else .white := by
  rw [project, if_pos rfl, ditherLevel, levelOf]

/-- The cells of a tile, in the order in which the statement lists them, are all the entries of the matrix, in order
(43_dither_and_modifiers.md R231). -/
theorem tile_map_cellIndex : tile.map (fun xy => cellIndex xy.1 xy.2) = List.finRange 64 := by decide

/-- Entries below 64 without a repetition are a rearrangement of 0..63 (43_dither_and_modifiers.md R231). -/
theorem map_get_finRange_perm {m : DitherMatrix} (hm : m.isPermutation = true) :
    ((List.finRange 64).map m.get).Perm (List.finRange 64) := by
  have hinj : Function.Injective m.get := by
    intro i j hij
    have hnodup : m.toList.Nodup := of_decide_eq_true hm
    have hval : i.val = j.val := hnodup.getElem_inj_iff.mp hij
    exact Fin.ext hval
  exact Equiv.Perm.map_finRange_perm (.ofBijective m.get (Finite.injective_iff_bijective.mp hinj))

theorem countP_val_lt_finRange (n L : Nat) : (List.finRange n).countP (fun j => j.val < L) = min n L := by
  rw [List.countP_eq_length_filter]
  exact Fin.card_filter_val_lt

/-- The cells of a tile whose entry lies below a level are as many as the level (43_dither_and_modifiers.md R232). -/
theorem countP_tile_threshold_lt {m : DitherMatrix} (hm : m.isPermutation = true) {L : Nat} (hL : L ≤ 64) :
    tile.countP (fun xy => threshold m xy.1 xy.2 < L) = L := by
  calc tile.countP (fun xy => threshold m xy.1 xy.2 < L)
      = ((tile.map fun xy => cellIndex xy.1 xy.2).map m.get).countP (fun e => e.val < L) := by
        rw [List.countP_map, List.countP_map]; rfl
    _ = (List.finRange 64).countP (fun e => e.val < L) := by
        rw [tile_map_cellIndex, (map_get_finRange_perm hm).countP_eq]
    _ = L := by rw [countP_val_lt_finRange, Nat.min_eq_right hL]

/-- Settles O29: the levels by arithmetic, and the count because a permutation of 0..63 has exactly L entries below L. -/
theorem projectionCounts : Obligations.ProjectionCounts := by
  intro m c hm hc
  have hlevel : levelOf c ≤ 64 := by unfold levelOf; omega
  refine ⟨fun _ _ => rfl, project_dither m c, hlevel, by rintro rfl; rfl, by rintro rfl; rfl, by rintro rfl; rfl, ?count⟩
  case count =>
    have hblack (xy : BitVec 3 × BitVec 3) :
        (project m c xy.1 xy.2 true == .black) = decide (threshold m xy.1 xy.2 < levelOf c) := by
      rw [project_dither]
      split <;> simp [*]
    simp only [hblack]
    exact countP_tile_threshold_lt hm hlevel

/-! ### The coordinates of the ports -/

theorem coordX_toNat (s : State) : (coordX s).toNat = s.ports.x.toNat % 8 := BitVec.extractLsb'_toNat ..

theorem coordY_toNat (s : State) : (coordY s).toNat = s.ports.y.toNat % 8 := BitVec.extractLsb'_toNat ..

theorem threshold_coord (s : State) : threshold s.cfg.matrix (coordX s) (coordY s) = ditherEntry s := by
  simp only [threshold, ditherEntry, cellIndex, coordX_toNat, coordY_toNat]

/-- The class that the ordered-dither threshold gives a coverage (43_dither_and_modifiers.md R232). -/
def ditheredClass (s : State) (c : Nat) : OperandClass :=
  if ditherEntry s < levelOf c then .black else .white

theorem ditheredClass_ne_other (s : State) (c : Nat) : ditheredClass s c ≠ .other := by
  unfold ditheredClass
  split <;> decide

theorem project_dither_coord (s : State) (c : Nat) :
    project s.cfg.matrix c (coordX s) (coordY s) true = ditheredClass s c := by
  rw [project_dither, threshold_coord, ditheredClass]

/-- The text dither pattern at the coordinates of the ports: their parity survives the remainder by 8
(43_dither_and_modifiers.md R234). -/
theorem textBit_coord_eq_one (s : State) :
    textBit (coordX s) (coordY s) = 1 ↔ (s.ports.x.toNat + s.ports.y.toNat) % 2 = 0 := by
  rw [textBit_eq_one, coordX_toNat, coordY_toNat]
  omega

/-! ### The text-only mode -/

section TextMode

variable {s : State} {k : OperandClass}

theorem exec_text_reserved (h3 : s.ports.srcClass = 3) : exec .grayishText s = failsWith s 4 := by
  rw [exec_of_mode (i := .grayishText) rfl, composite, compositePixel_text, textPixel, sourceOperand_reserved h3]
  rfl

theorem exec_text (hs : s.ports.srcClass = classCode k) :
    exec .grayishText s = answers s (inFormat (oneBit s) (grayText s.cfg.matrix ⟨k, coverage s⟩ (dstOperand s)
      (foreOperand .none s) (backOperand .none s) (oneBit s) (coordX s) (coordY s))) := by
  rw [exec_of_mode (i := .grayishText) rfl, composite, compositePixel_text, textPixel, sourceOperand_of_classCode hs]
  rfl

/-- On a colour destination: source-OR with the gray as its fill (43_dither_and_modifiers.md R236). -/
theorem exec_text_colour (h0 : s.ports.dst1bit = 0) (hs : s.ports.srcClass = classCode k) :
    exec .grayishText s = answers s
      (familyTable .or ⟨k, coverage s⟩ s.ports.dstPix (textGray s.ports.fg s.ports.bg) s.ports.bg) := by
  rw [exec_text hs, dstOperand, foreOperand, backOperand, oneBit_of_dst1bit_zero h0]
  cases k <;> rfl

theorem textBlack_iff (m : DitherMatrix) (k : OperandClass) (c : Nat) (xi yi : BitVec 3) :
    textBlack m ⟨k, c⟩ xi yi = true ↔ k = .black ∨ k = .other ∧ 32768 ≤ c := by
  cases k <;> simp [textBlack, project_midpoint_eq_black]

/-- On a 1-bit destination: the foreground where the operand counts as BLACK and x + y is even, and the destination elsewhere
(43_dither_and_modifiers.md R236). -/
theorem exec_text_oneBit (h1 : s.ports.dst1bit = 1) (hs : s.ports.srcClass = classCode k) :
    exec .grayishText s = answers s
      (if (k = .black ∨ k = .other ∧ 32768 ≤ coverage s) ∧ (s.ports.x.toNat + s.ports.y.toNat) % 2 = 0
        then lowBit s.ports.fg else lowBit s.ports.dstPix) := by
  rw [exec_text hs, dstOperand, foreOperand, oneBit_of_dst1bit_one h1, grayText, if_pos rfl]
  simp only [textBlack_iff, textBit_coord_eq_one, apply_ite (inFormat true), inFormat_inFormat]
  rfl

end TextMode

/-- Settles O50: the class and the depth select the cell, and an OTHER operand on a 1-bit destination counts as BLACK from the
midpoint. -/
theorem grayishTextResult : Obligations.GrayishTextResult := by
  refine ⟨fun p => decode_ofNat_of_some (decodeMode_text p), textBit_eq_one,
    fun s => ⟨exec_text_reserved, fun h0 => ?colour, fun h1 => ⟨fun hk => ?black, fun hk => ?white⟩⟩⟩
  case colour =>
    exact ⟨exec_text_colour (k := .black) h0, exec_text_colour (k := .white) h0, exec_text_colour (k := .other) h0⟩
  case black =>
    rcases hk with hs | ⟨hs, hc⟩
    · rw [exec_text_oneBit (k := .black) h1 hs]
      simp
    · rw [exec_text_oneBit (k := .other) h1 hs]
      simp [hc]
  case white =>
    rcases hk with hs | ⟨hs, hc⟩
    · rw [exec_text_oneBit (k := .white) h1 hs]
      simp
    · rw [exec_text_oneBit (k := .other) h1 hs]
      simp [Nat.not_le.mpr hc]

/-! ### The words of the modifier codes -/

/-- Base code b of modifier HILITE (30_encoding.md R78, R80). -/
theorem decode_hiliteCode {p : OverlapPolicy} {b : BitVec 4} (h : b.toNat ≤ 13 ∨ p = .hiliteFirst) :
    decode p (BitVec.ofNat 32 (b.toNat + 50)) = .ok (instrOfMode (baseMode b .hilite)) :=
  decode_ofNat_of_some (decodeMode_hilite h)

/-- Base code b of modifier DITHER (30_encoding.md R79, R80). -/
theorem decode_ditherCode {p : OverlapPolicy} {b : BitVec 4} (h : 2 ≤ b.toNat ∨ p = .ditherFirst) :
    decode p (BitVec.ofNat 32 (b.toNat + 64)) = .ok (instrOfMode (baseMode b .dither)) :=
  decode_ofNat_of_some (decodeMode_dither h)

/-- A mode code is the word of the instruction it decodes to. No code above 79 decodes, so this is a fact about a table of 80
codes. -/
theorem encode_of_decodeMode {p : OverlapPolicy} {m : Nat} {md : Mode} (h : decodeMode p m = some md) :
    encode (instrOfMode md) = BitVec.ofNat 32 m := by
  have table : ∀ m < 80, ∀ md ∈ decodeMode p m, encode (instrOfMode md) = BitVec.ofNat 32 m := by
    cases p <;> decide
  have hm := decodeMode_le h
  exact table m (by omega) md h

/-- No two words decode to one COMPOSITE (30_encoding.md R86). -/
theorem encode_of_decode_composite {p : OverlapPolicy} {w : Word} {i : Instr} {md : Mode} (hi : i.mode = some md)
    (h : decode p w = .ok i) : encode i = w := by
  rcases decode_cases p w with ⟨_, hd⟩ | ⟨hr, hc, md', hm, hd⟩ | ⟨_, _, _, hd⟩ | ⟨_, _, hd⟩ | ⟨_, _, hd⟩ | ⟨_, _, hd⟩ |
    ⟨_, _, hd⟩ | ⟨_, _, hd⟩ <;> rw [hd] at h <;> cases h
  · rw [encode_of_decodeMode hm, ← word_eq_mode hr hc]
  all_goals cases hi

/-- An instruction that one policy alone gives a code is decoded from its word, under that policy, and from nothing else
(30_encoding.md R80). -/
theorem decode_iff_of_one_policy {i : Instr} {md : Mode} {q : OverlapPolicy} (hi : i.mode = some md)
    (hq : ∀ p, i.wellFormed p = (p == q)) (hd : decode q (encode i) = .ok i) (p : OverlapPolicy) (w : Word) :
    decode p w = .ok i ↔ p = q ∧ w = encode i := by
  refine ⟨fun h => ⟨eq_of_beq (hq p ▸ wellFormed_of_decode h), (encode_of_decode_composite hi h).symm⟩, ?_⟩
  rintro ⟨rfl, rfl⟩
  exact hd

/-! ### The highlight modifier -/

/-- The state with the two colours exchanged on the ports. -/
def exchangeColours (s : State) : State :=
  { s with ports := { s.ports with fg := s.ports.bg, bg := s.ports.fg } }

/-- A highlighted mode computes what its base mode computes with the colours exchanged, errors alike
(43_dither_and_modifiers.md R235). -/
theorem boolPixel_hilite (o : BoolOperand) (inv : Bool) (fam : Family) (s : State) :
    boolPixel o inv fam .hilite s = boolPixel o inv fam .none (exchangeColours s) := by
  have hopd : boolOperand o s = boolOperand o (exchangeColours s) := by cases o <;> rfl
  have hfore : foreOperand .hilite s = foreOperand .none (exchangeColours s) := rfl
  have hback : backOperand .hilite s = backOperand .none (exchangeColours s) := rfl
  rw [boolPixel, boolPixel, hopd, hfore, hback]
  rfl

/-- Two COMPOSITEs with one result, of one depth and one destination pixel, drive one response, and each leaves the rest of its
own state (40_mode_selector_mux.md R100, R109). -/
theorem composite_same_response {md md' : Mode} {s t : State} (hpix : compositePixel md s = compositePixel md' t)
    (hone : oneBit s = oneBit t) (hdst : s.ports.dstPix = t.ports.dstPix) :
    ∃ r, composite md s = .next { s with rsp := some r } ∧ composite md' t = .next { t with rsp := some r } := by
  rw [composite, composite, ← hpix, ← hone]
  cases compositePixel md s with
  | ok pix => exact ⟨⟨inFormat (oneBit s) pix, 0, statusOk⟩, rfl, rfl⟩
  | error e => exact ⟨⟨s.ports.dstPix, 0, errorCode e⟩, rfl, by rw [hdst]; rfl⟩

/-- Settles O51: the modifier is read in the two colour operands alone. -/
theorem highlightExchangesColours : Obligations.HighlightExchangesColours := by
  intro o inv fam s
  rw [exec_of_mode (mode_instrOfMode _), exec_of_mode (mode_instrOfMode _)]
  exact composite_same_response (t := exchangeColours s) (boolPixel_hilite o inv fam s) rfl rfl

/-- Settles O52: the cells of the table with the colours exchanged; the inverted weight exchanges the ends of the mix. -/
theorem highlightSourceResults : Obligations.HighlightSourceResults := by
  refine ⟨fun p => ?codes, fun s => ?results⟩
  case codes =>
    have code (b : BitVec 4) (hb : b.toNat ≤ 13) := decode_hiliteCode (p := p) (.inl hb)
    exact ⟨code 0 (by decide), code 1 (by decide), code 2 (by decide), code 3 (by decide), code 4 (by decide),
      code 5 (by decide), code 6 (by decide), code 7 (by decide)⟩
  case results =>
    have result {i : Instr} (inv : Bool) (fam : Family) (hi : i.mode = some (.bool .source inv fam .hilite))
        (hx : fam ≠ .xor) := sourceMode_of_mode (s := s) inv fam .hilite hi hx (by decide)
    refine ⟨result false .copy rfl (by decide), result false .or rfl (by decide), sourceXorMode_of_mode false .hilite rfl,
      result false .bic rfl (by decide), ?notCopy, result true .or rfl (by decide), sourceXorMode_of_mode true .hilite rfl,
      result true .bic rfl (by decide)⟩
    case notCopy =>
      rw [← mix_eq_weighted, ← mix_invert _ _ (coverage_le s)]
      exact result true .copy rfl (by decide)

/-- Settles O53: the cells of the table with the colours exchanged; the last two modes are well-formed under HILITE_FIRST alone. -/
theorem highlightPatternResults : Obligations.HighlightPatternResults := by
  refine ⟨fun p => ?codes, fun s => ?results, fun p w =>
    ⟨decode_iff_of_one_policy (i := .hiliteNotPatXor) rfl (fun _ => rfl) rfl p w,
      decode_iff_of_one_policy (i := .hiliteNotPatBic) rfl (fun _ => rfl) rfl p w⟩⟩
  case codes =>
    have code (b : BitVec 4) (hb : b.toNat ≤ 13) := decode_hiliteCode (p := p) (.inl hb)
    exact ⟨code 8 (by decide), code 9 (by decide), code 10 (by decide), code 11 (by decide), code 12 (by decide),
      code 13 (by decide)⟩
  case results =>
    exact ⟨patternMode_of_mode false .copy .hilite rfl (by decide), patternMode_of_mode false .or .hilite rfl (by decide),
      patternXorMode_of_mode false .hilite rfl, patternMode_of_mode false .bic .hilite rfl (by decide),
      patternMode_of_mode true .copy .hilite rfl (by decide), patternMode_of_mode true .or .hilite rfl (by decide),
      patternXorMode_of_mode true .hilite rfl, patternMode_of_mode true .bic .hilite rfl (by decide)⟩

/-! ### The dither modifier -/

/-- The modifier is read only where the projection is made: for an OTHER operand on a 1-bit destination, in every family but XOR
(41_boolean_transfer_alu.md R123, 43_dither_and_modifiers.md R233). -/
theorem projectOperand_dith_irrelevant {m : DitherMatrix} {fam : Family} {one : Bool} {xi yi : BitVec 3} {o : Operand}
    (h : one = false ∨ o.k ≠ .other ∨ fam = .xor) (dith dith' : Bool) :
    projectOperand m fam one xi yi dith o = projectOperand m fam one xi yi dith' o := by
  rcases h with rfl | hk | rfl
  · rw [projectOperand_colour, projectOperand_colour]
  · rw [projectOperand_known _ _ _ _ _ _ hk, projectOperand_known _ _ _ _ _ _ hk]
  · rw [projectOperand_xor, projectOperand_xor]

/-- Only a source mode that is presented with class 2 has an OTHER operand (10_state.md R31, 44_pattern_tile_lut.md R314). -/
theorem boolOperand_ne_other {o : BoolOperand} {s : State} {opd : Operand} (ho : boolOperand o s = some opd)
    (h : s.ports.srcClass ≠ 2 ∨ o = .pattern) : opd.k ≠ .other := by
  cases o with
  | pattern =>
    cases ho
    rw [patternOperand_eq]
    cases tileBit s <;> decide
  | source =>
    have h2 : s.ports.srcClass ≠ 2 := h.resolve_right (by decide)
    by_cases h3 : s.ports.srcClass = 3
    · rw [boolOperand, sourceOperand_reserved h3] at ho
      cases ho
    · obtain ⟨k, hk⟩ := exists_classCode_of_ne_three h3
      rw [boolOperand, sourceOperand_of_classCode hk] at ho
      cases ho
      rintro rfl
      exact h2 hk

theorem boolALU_eq (m : DitherMatrix) (fam : Family) (inv : Bool) (o : Operand) (d f bk : Pixel) (one : Bool)
    (xi yi : BitVec 3) (dith : Bool) :
    boolALU m fam inv o d f bk one xi yi dith = familyTable fam (projectOperand m fam one xi yi dith (sensed inv o)) d f bk :=
  rfl

/-- Where the operand is not projected a dithered mode computes what its base mode computes, errors alike
(43_dither_and_modifiers.md R233). -/
theorem boolPixel_dither {o : BoolOperand} {fam : Family} {s : State}
    (h : s.ports.dst1bit = 0 ∨ s.ports.srcClass ≠ 2 ∨ o = .pattern ∨ fam = .xor) (inv : Bool) :
    boolPixel o inv fam .dither s = boolPixel o inv fam .none s := by
  cases ho : boolOperand o s with
  | none => simp only [boolPixel, ho]
  | some opd =>
    have hproj : oneBit s = false ∨ (sensed inv opd).k ≠ .other ∨ fam = .xor := by
      rcases h with h0 | h2 | hp | hx
      · exact .inl (oneBit_of_dst1bit_zero h0)
      · exact .inr (.inl (sensed_ne_other inv (boolOperand_ne_other ho (.inl h2)) _))
      · exact .inr (.inl (sensed_ne_other inv (boolOperand_ne_other ho (.inr hp)) _))
      · exact .inr (.inr hx)
    simp only [boolPixel, ho, boolALU_eq]
    rw [projectOperand_dith_irrelevant hproj _ (Modifier.none == .dither)]
    rfl

/-- A dithered OTHER source operand on a 1-bit destination answers as the class that the threshold gives its coverage after
inversion (41_boolean_transfer_alu.md R122, R123, 43_dither_and_modifiers.md R233). -/
theorem exec_source_oneBit_dithered {i : Instr} {s : State} {inv : Bool} {fam : Family}
    (hi : i.mode = some (.bool .source inv fam .dither)) (hx : fam ≠ .xor) (h1 : s.ports.dst1bit = 1)
    (hs : s.ports.srcClass = classCode .other) :
    exec i s = answers s (lowBit (familyCell fam .dither s
      ⟨ditheredClass s (sensedCoverage inv (coverage s)), coverage s⟩)) := by
  have hproject : project s.cfg.matrix (sensedCoverage inv (coverage s)) (coordX s) (coordY s) (Modifier.dither == .dither) =
      ditheredClass s (sensedCoverage inv (coverage s)) := project_dither_coord ..
  rw [exec_source_oneBit_other hi hx h1 hs, hproject,
    familyCell_coverage fam .dither s (ditheredClass_ne_other _ _) _ (coverage s)]

/-- A dithered boolean source mode of family COPY, OR or BIC: as without the modifier, but for the projection of an OTHER
operand. -/
theorem ditheredMode_of_mode {i : Instr} {s : State} (inv : Bool) (fam : Family)
    (hi : i.mode = some (.bool .source inv fam .dither)) (hx : fam ≠ .xor) :
    DitheredMode i s (familyCell fam .dither s (sensed inv ⟨.black, coverage s⟩))
      (familyCell fam .dither s (sensed inv ⟨.white, coverage s⟩))
      (familyCell fam .dither s (sensed inv ⟨.other, coverage s⟩)) (sensedCoverage inv (coverage s))
      (familyCell fam .dither s ⟨.black, coverage s⟩) (familyCell fam .dither s ⟨.white, coverage s⟩) := by
  refine ⟨exec_bool_reserved hi, fun h0 => ?colour, fun h1 => ?oneBit⟩
  case colour =>
    have answer (k : OperandClass) (hs : s.ports.srcClass = classCode k) :=
      exec_bool_colour hi hx h0 (sourceOperand_of_classCode hs)
    exact ⟨answer .black, answer .white, answer .other⟩
  case oneBit =>
    refine ⟨exec_source_oneBit_known (k := .black) hi h1 (by decide),
      exec_source_oneBit_known (k := .white) hi h1 (by decide), fun hs => ?_⟩
    rw [exec_source_oneBit_dithered hi hx h1 hs, ditheredClass]
    split <;> rfl

/-- The state with another class presented for the source operand. -/
def presentClass (s : State) (b : BitVec 2) : State :=
  { s with ports := { s.ports with srcClass := b } }

/-- Presenting BLACK or WHITE in place of the source operand selects the cell of that class, with all other ports as they are
(41_boolean_transfer_alu.md R124). -/
theorem exec_presentClass {i : Instr} {s : State} {inv : Bool} {fam : Family} {mod : Modifier}
    (hi : i.mode = some (.bool .source inv fam mod)) (h1 : s.ports.dst1bit = 1) {k : OperandClass} (hk : k ≠ .other)
    {b : BitVec 2} (hb : b = classCode k) :
    exec i (presentClass s b) =
      answers (presentClass s b) (lowBit (familyCell fam mod s (sensed inv ⟨k, coverage s⟩))) :=
  exec_source_oneBit_known (s := presentClass s b) hi h1 hk hb

/-- A dithered mode with an OTHER operand on a 1-bit destination drives the response of the plain mode of its family, without
inversion, for the class that the threshold gives (43_dither_and_modifiers.md R233). -/
theorem dithered_eq_presented {s : State} (inv : Bool) {fam : Family} (hx : fam ≠ .xor) (h1 : s.ports.dst1bit = 1)
    (hs : s.ports.srcClass = classCode .other) {b : BitVec 2}
    (hb : b = classCode (ditheredClass s (sensedCoverage inv (coverage s)))) :
    ∃ (r : Response) (q : Ports), q = { s.ports with srcClass := b } ∧
      exec (instrOfMode (.bool .source inv fam .dither)) s = .next { s with rsp := some r } ∧
      exec (instrOfMode (.bool .source false fam .none)) { s with ports := q } = .next { s with ports := q, rsp := some r } :=
  ⟨_, _, rfl, exec_source_oneBit_dithered (mode_instrOfMode _) hx h1 hs,
    exec_presentClass (mode_instrOfMode _) h1 (ditheredClass_ne_other s _) hb⟩

/-- Settles O54: the modifier is read where an OTHER operand is projected, and there the plain mode of the same family, without
inversion, answers the same for the class that the threshold gives. -/
theorem ditherModifierResult : Obligations.DitherModifierResult := by
  intro o inv fam s
  refine ⟨fun h => ?same, ?projected⟩
  case same =>
    rw [exec_of_mode (mode_instrOfMode _), exec_of_mode (mode_instrOfMode _), composite, composite, compositePixel_bool,
      compositePixel_bool, boolPixel_dither h]
  case projected =>
    rintro h1 h2 rfl hx
    rw [← sensedCoverage]
    have hclass : (if ditherEntry s < levelOf (sensedCoverage inv (coverage s)) then 1 else 0 : BitVec 2) =
        classCode (ditheredClass s (sensedCoverage inv (coverage s))) := by
      unfold ditheredClass
      split <;> rfl
    exact dithered_eq_presented inv hx h1 h2 hclass

/-- Settles O55: the cells of the table, the class of an OTHER operand on a 1-bit destination being that of its inverted coverage;
the first two modes are well-formed under DITHER_FIRST alone. -/
theorem ditherSourceResults : Obligations.DitherSourceResults := by
  refine ⟨fun p => ?codes, fun s => ?results, fun p w =>
    ⟨decode_iff_of_one_policy (i := .ditherSrcCopy) rfl (fun _ => rfl) rfl p w,
      decode_iff_of_one_policy (i := .ditherSrcOr) rfl (fun _ => rfl) rfl p w⟩⟩
  case codes =>
    have code (b : BitVec 4) (hb : 2 ≤ b.toNat) := decode_ditherCode (p := p) (.inl hb)
    exact ⟨code 2 (by decide), code 3 (by decide), code 4 (by decide), code 5 (by decide), code 6 (by decide),
      code 7 (by decide)⟩
  case results =>
    refine ⟨ditheredMode_of_mode false .copy rfl (by decide), ditheredMode_of_mode false .or rfl (by decide),
      sourceXorMode_of_mode false .dither rfl, ditheredMode_of_mode false .bic rfl (by decide), ?notCopy,
      ditheredMode_of_mode true .or rfl (by decide), sourceXorMode_of_mode true .dither rfl,
      ditheredMode_of_mode true .bic rfl (by decide)⟩
    case notCopy =>
      rw [← mix_eq_weighted, ← mix_invert _ _ (coverage_le s)]
      exact ditheredMode_of_mode true .copy rfl (by decide)

/-- Settles O56: a pattern operand is never OTHER, so the cells of the table are those of the base modes. -/
theorem ditherPatternResults : Obligations.DitherPatternResults := by
  refine ⟨fun p => ?codes, fun s => ?results⟩
  case codes =>
    have code (b : BitVec 4) (hb : 2 ≤ b.toNat) := decode_ditherCode (p := p) (.inl hb)
    exact ⟨code 8 (by decide), code 9 (by decide), code 10 (by decide), code 11 (by decide), code 12 (by decide),
      code 13 (by decide), code 14 (by decide), code 15 (by decide)⟩
  case results =>
    exact ⟨patternMode_of_mode false .copy .dither rfl (by decide), patternMode_of_mode false .or .dither rfl (by decide),
      patternXorMode_of_mode false .dither rfl, patternMode_of_mode false .bic .dither rfl (by decide),
      patternMode_of_mode true .copy .dither rfl (by decide), patternMode_of_mode true .or .dither rfl (by decide),
      patternXorMode_of_mode true .dither rfl, patternMode_of_mode true .bic .dither rfl (by decide)⟩

end Sys2Proof
end

