-- ==== Sys2Proof/Proofs/PatternTile.lean ====
section
/-! PROOFS. The pattern tile (44_pattern_tile_lut.md): what the cells of a seed pattern, a solid pattern and `PAT` hold, and the
statements about the pattern commands. -/

open Sys2Proof.Machine Sys2Proof.Spec

namespace Sys2Proof

/-! ### The patterns, bit by bit -/

theorem getLsbD_seedPat (seed : Word) {i : Nat} (hi : i < 64) : (seedPat seed).getLsbD i = seed.getLsbD (i % 32) := by
  rw [seedPat, BitVec.getLsbD_append]
  split
  · next hlow => rw [Nat.mod_eq_of_lt hlow]
  · next hhigh => rw [show i % 32 = i - 32 by omega]

/-- Rows 0 to 3 and rows 4 to 7 both read the four bytes of the seed from the most significant down
(44_pattern_tile_lut.md R304). -/
theorem cellOf_seedPat_eq_one (seed : Word) (xi yi : BitVec 3) :
    cellOf (seedPat seed) xi yi = 1 ↔ seed.getLsbD (8 * (3 - yi.toNat % 4) + (7 - xi.toNat)) = true := by
  have hx := xi.isLt
  have hy := yi.isLt
  have hbit : (63 - (8 * yi.toNat + xi.toNat)) % 32 = 8 * (3 - yi.toNat % 4) + (7 - xi.toNat) := by omega
  rw [cellOf_eq_one, getLsbD_seedPat seed (by omega), hbit]

/-- The solid pattern of a word's bit 0 (44_pattern_tile_lut.md R306). -/
theorem solidPat_extractLsb'_zero (w : Word) :
    solidPat (w.extractLsb' 0 1) = if w.getLsbD 0 then 0xFFFFFFFFFFFFFFFF else 0x0000000000000000 := by
  have hbit : w.extractLsb' 0 1 = BitVec.ofBool (w.getLsbD 0) :=
    calc w.extractLsb' 0 1 = w.setWidth 1 := BitVec.eq_of_toNat_eq rfl
      _ = BitVec.ofBool (w.getLsbD 0) := BitVec.setWidth_one
  rw [hbit]
  cases w.getLsbD 0 <;> rfl

/-- An index above 4 has no pattern (44_pattern_tile_lut.md R305). -/
theorem presetPat_eq_none {index : Word} (h : 4 < index.toNat) : presetPat index = none := by
  rw [← Option.not_isSome_iff_eq_none, presetPat_isSome]
  omega

/-- The sample of `PAT` at the coordinates of the ports (44_pattern_tile_lut.md R302). -/
theorem patSample_ports (s : State) : patSample s.pat s.ports.x s.ports.y = if tileBit s then 1 else 0 := by
  have hone : patSample s.pat s.ports.x s.ports.y = 1 ↔ tileBit s = true := patSample_eq_one ..
  split
  · next hset => exact hone.mpr hset
  · next hclear => exact (BitVec.eq_zero_or_eq_one _).resolve_right (mt hone.mp hclear)

/-! ### What a pattern command answers -/

theorem exec_ldpatSeed (s : State) :
    exec .ldpatSeed s = answers { s with pat := s.ports.arg ++ s.ports.arg } s.ports.dstPix := rfl

theorem exec_ldpatSolid (s : State) :
    exec .ldpatSolid s =
      answers { s with pat := if s.ports.arg.getLsbD 0 then 0xFFFFFFFFFFFFFFFF else 0x0000000000000000 } s.ports.dstPix := by
  rw [← solidPat_extractLsb'_zero]
  rfl

theorem exec_ldpatPreset_of_some {s : State} {g : Grid} (h : presetPat s.ports.arg = some g) :
    exec .ldpatPreset s = answers { s with pat := g } s.ports.dstPix := by
  simp only [exec, execLdpatPreset, h]
  rfl

theorem exec_ldpatPreset_of_none {s : State} (h : presetPat s.ports.arg = none) : exec .ldpatPreset s = failsWith s 5 := by
  simp only [exec, execLdpatPreset, h]
  rfl

theorem exec_sample (s : State) :
    exec .sample s =
      .next { s with rsp := some { pix := s.ports.dstPix, bit := if tileBit s then 1 else 0, status := 0 } } := by
  rw [← patSample_ports]
  rfl

/-! ### The obligations -/

/-- Settles O28: bit 63 - (8*row + column) of the doubled seed is that bit of the seed mod 32. -/
theorem seedRows : Obligations.SeedRows := fun seed xi yi =>
  ⟨rfl, cellOf_seedPat_eq_one seed xi yi⟩

/-- Settles O57: command 1 writes the doubled seed. -/
theorem ldpatSeedResult : Obligations.LdpatSeedResult :=
  ⟨fun _ => rfl, exec_ldpatSeed⟩

/-- Settles O58: command 2 writes the solid pattern of the argument's bit 0. -/
theorem ldpatSolidResult : Obligations.LdpatSolidResult := by
  refine ⟨fun _ => rfl, fun s => ⟨fun hset => ?_, fun hclear => ?_⟩⟩
  · simpa only [hset, if_true] using exec_ldpatSolid s
  · simpa only [hclear, Bool.false_eq_true, if_false] using exec_ldpatSolid s

/-- Settles O59: command 3 writes the pattern that the table has for the index, and fails where it has none. -/
theorem ldpatPresetResult : Obligations.LdpatPresetResult := by
  refine ⟨fun _ => rfl, fun s => ?_⟩
  have preset (index : Word) (g : Grid) (hg : presetPat index = some g) (harg : s.ports.arg = index) :
      exec .ldpatPreset s = answers { s with pat := g } s.ports.dstPix :=
    exec_ldpatPreset_of_some (harg ▸ hg)
  exact ⟨preset 0 _ rfl, preset 1 _ rfl, preset 2 _ rfl, preset 3 _ rfl, preset 4 _ rfl,
    fun hlarge => exec_ldpatPreset_of_none (presetPat_eq_none hlarge)⟩

/-- Settles O60: command 4 answers the cell of `PAT` at the coordinates mod 8. -/
theorem sampleResult : Obligations.SampleResult :=
  ⟨fun _ => rfl, exec_sample⟩

end Sys2Proof
end

