-- ==== Sys2Proof/Proofs/Exceptions.lean ====
section
/-! PROOFS. The errors (60_exceptions.md): how a command can end, the first error of each kind of command, and the statements about
the error response. -/

open Sys2Proof.Machine Sys2Proof.Spec

namespace Sys2Proof

/-! ### How a command ends -/

theorem step_of_command {s : State} {q : Ports} {rest : List HostEvent} (hs : s.script = .command q :: rest) :
    step s = runPresented (present q rest s) := by
  simp only [step, hs]

/-- A command either raises an error, or ends with status OK and whatever pattern it leaves (60_exceptions.md R402). -/
theorem step_command_cases {s : State} {q : Ports} {rest : List HostEvent} (hs : s.script = .command q :: rest) :
    (∃ e, step s = .next (raise e (present q rest s))) ∨
    (∃ pix bit g, step s = .next (driveOk pix bit (writePat g (present q rest s)))) := by
  cases hd : decode s.cfg.overlap q.cw with
  | error e => exact .inl ⟨e, step_of_decode_error hs hd⟩
  | ok i =>
    have hstep : step s = exec i (present q rest s) := by simp [step_of_command hs, runPresented, hd]
    rw [hstep]
    rcases exec_cases i (present q rest s) with ⟨_, _, _, _, hn⟩ | ⟨e, hn⟩ | ⟨g, _, _, hn⟩ | ⟨_, hn⟩
    · exact .inr ⟨_, _, s.pat, hn⟩
    · exact .inl ⟨e, hn⟩
    · exact .inr ⟨_, _, g, hn⟩
    · exact .inr ⟨_, _, s.pat, hn⟩

/-- A command whose status is an error's ends with the error response alone (60_exceptions.md R402). -/
theorem error_step_eq {s t : State} {q : Ports} {rest : List HostEvent} {r : Response} (hs : s.script = .command q :: rest)
    (ht : step s = .next t) (hr : t.rsp = some r) (hne : r.status ≠ 0) :
    t = { s with ports := q, script := rest, rsp := some { pix := q.dstPix, bit := 0, status := r.status } } := by
  rcases step_command_cases hs with ⟨e, hn⟩ | ⟨pix, bit, g, hn⟩ <;> obtain rfl := Host.Outcome.next.inj (ht.symm.trans hn)
  case inl => cases hr; rfl
  case inr => cases hr; exact absurd rfl hne

/-! ### The status a command ends with -/

/-- The outcome is a next state whose response has this status. -/
def EndsWith (o : Host.Outcome State Fault Refusal) (code : BitVec 3) : Prop :=
  ∃ (t : State) (r : Response), o = .next t ∧ t.rsp = some r ∧ r.status = code

theorem endsWith_raise (e : ErrorKind) (s : State) : EndsWith (.next (raise e s)) (errorCode e) :=
  ⟨_, _, rfl, rfl, rfl⟩

theorem endsWith_driveOk (pix : Pixel) (bit : Bit) (s : State) : EndsWith (.next (driveOk pix bit s)) 0 :=
  ⟨_, _, rfl, rfl, rfl⟩

theorem endsWith_answers (s : State) (pix : Pixel) : EndsWith (answers s pix) 0 :=
  endsWith_driveOk pix 0 s

theorem endsWith_failsWith (s : State) (code : BitVec 3) : EndsWith (failsWith s code) code :=
  ⟨_, _, rfl, rfl, rfl⟩

/-! ### The first error of a COMPOSITE -/

/-- The part of `firstError` that a COMPOSITE of the decoded mode `md` reaches (60_exceptions.md R403). -/
def modeError (q : Ports) (md : Mode) : BitVec 3 :=
  if q.srcClass = 3 ∧
      (md.category = .boolSrc ∨ md.category = .text ∨
        (md.category = .arith ∧ md ≠ .arith .transparent ∧ q.dst1bit = 1)) then 4
  else if q.dst1bit = 0 ∧ isXorMode md = true then 2
  else if q.dst1bit = 0 ∧ md = .arith .blend ∧ (q.weight.toInt < 0 ∨ 65535 < q.weight.toInt) then 3
  else 0

theorem modeError_bool (q : Ports) (o : BoolOperand) (inv : Bool) (fam : Family) (mod : Modifier) :
    modeError q (.bool o inv fam mod) =
      if o = .source ∧ q.srcClass = 3 then 4 else if fam = .xor ∧ q.dst1bit = 0 then 2 else 0 := by
  cases o <;> cases fam <;> simp [modeError, Mode.category, isXorMode]

theorem modeError_text (q : Ports) : modeError q .text = if q.srcClass = 3 then 4 else 0 := by
  simp [modeError, Mode.category, isXorMode]

/-- An arithmetic mode that reverts has the errors of the boolean source mode it becomes (40_mode_selector_mux.md R102). -/
theorem modeError_arith_reverted {q : Ports} {aop : ArithOp} {fam : Family} (h1 : q.dst1bit = 1)
    (hr : revertFamily aop = some fam) : modeError q (.arith aop) = modeError q (.bool .source false fam .none) := by
  cases aop <;> cases hr <;> simp [modeError, Mode.category, isXorMode, h1]

/-- An arithmetic mode that does not revert can fail by its weight alone, and only as BLEND (40_mode_selector_mux.md R107). -/
theorem modeError_arith_of_not_reverted {q : Ports} {aop : ArithOp} (hr : q.dst1bit = 1 → revertFamily aop = none) :
    modeError q (.arith aop) =
      if aop = .blend ∧ (q.weight.toInt < 0 ∨ 65535 < q.weight.toInt) then 3 else 0 := by
  rcases BitVec.eq_zero_or_eq_one q.dst1bit with h0 | h1
  · simp [modeError, Mode.category, isXorMode, h0]
  · have hr := hr h1
    cases aop <;> cases hr
    simp [modeError, Mode.category, isXorMode]

section Composite

variable {i : Instr} {s : State}

/-- A boolean mode checks its operand first and its depth second (60_exceptions.md R403). -/
theorem exec_bool_endsWith {o : BoolOperand} {inv : Bool} {fam : Family} {mod : Modifier}
    (hi : i.mode = some (.bool o inv fam mod)) : EndsWith (exec i s) (modeError s.ports (.bool o inv fam mod)) := by
  rw [modeError_bool]
  by_cases h3 : o = .source ∧ s.ports.srcClass = 3
  · obtain ⟨rfl, hclass⟩ := h3
    rw [if_pos ⟨rfl, hclass⟩, exec_bool_reserved hi hclass]
    exact endsWith_failsWith s 4
  · rw [if_neg h3]
    obtain ⟨opd, ho⟩ : ∃ opd, boolOperand o s = some opd := by
      cases o with
      | pattern => exact ⟨_, rfl⟩
      | source =>
        obtain ⟨k, hk⟩ := exists_classCode_of_ne_three fun h => h3 ⟨rfl, h⟩
        exact ⟨_, sourceOperand_of_classCode hk⟩
    by_cases hx : fam = .xor ∧ s.ports.dst1bit = 0
    · obtain ⟨rfl, h0⟩ := hx
      rw [if_pos ⟨rfl, h0⟩, exec_bool_xor_colour hi h0 ho]
      exact endsWith_failsWith s 2
    · rw [if_neg hx, exec_bool hi ho fun hf =>
        oneBit_of_dst1bit_one ((BitVec.eq_zero_or_eq_one _).resolve_left fun h0 => hx ⟨hf, h0⟩)]
      exact endsWith_answers s _

theorem exec_text_endsWith : EndsWith (exec .grayishText s) (modeError s.ports .text) := by
  rw [modeError_text]
  split
  · next h3 => exact exec_text_reserved h3 ▸ endsWith_failsWith s 4
  · next h3 =>
    obtain ⟨k, hk⟩ := exists_classCode_of_ne_three h3
    exact exec_text hk ▸ endsWith_answers s _

/-- An arithmetic mode either runs as the boolean source mode of its entry or checks nothing but the weight of BLEND
(40_mode_selector_mux.md R102, R107). -/
theorem exec_arith_endsWith {aop : ArithOp} (hi : i.mode = some (.arith aop)) :
    EndsWith (exec i s) (modeError s.ports (.arith aop)) := by
  by_cases hr : s.ports.dst1bit = 1 → revertFamily aop = none
  case neg =>
    obtain ⟨h1, hsome⟩ := Classical.not_imp.mp hr
    obtain ⟨fam, hfam⟩ := Option.ne_none_iff_exists'.mp hsome
    have hj := mode_instrOfMode (.bool .source false fam .none)
    rw [exec_arith_reverts hi hj hfam h1, modeError_arith_reverted h1 hfam]
    exact exec_bool_endsWith hj
  case pos =>
    rw [modeError_arith_of_not_reverted hr]
    have hunit : oneBit s = true → revertFamily aop = none := fun h => hr (by simpa [oneBit] using h)
    split
    · next hw =>
      obtain ⟨rfl, hw⟩ := hw
      have h0 : s.ports.dst1bit = 0 := (BitVec.eq_zero_or_eq_one _).resolve_right fun h1 => nomatch hr h1
      exact exec_blend_badWeight hi h0 hw ▸ endsWith_failsWith s 3
    · next hw =>
      have hrange : aop = .blend → 0 ≤ s.ports.weight.toInt ∧ s.ports.weight.toInt ≤ 65535 := fun hb => by
        have hin := not_or.mp fun hout => hw ⟨hb, hout⟩
        omega
      exact exec_arith hi hunit hrange ▸ endsWith_answers s _

/-- A COMPOSITE ends with the first error of its mode. -/
theorem exec_instrOfMode_endsWith (md : Mode) : EndsWith (exec (instrOfMode md) s) (modeError s.ports md) := by
  cases md with
  | bool o inv fam mod => exact exec_bool_endsWith (mode_instrOfMode _)
  | arith aop => exact exec_arith_endsWith (mode_instrOfMode _)
  | text => exact exec_text_endsWith

end Composite

/-! ### The first error of a command, by the fields of its word -/

section FirstError

variable {p : OverlapPolicy} {q : Ports}

theorem firstError_of_illegal (h : rsvField q.cw ≠ 0 ∨ 5 ≤ (cmdField q.cw).toNat) : firstError p q = 6 :=
  if_pos h

/-- A COMPOSITE fails by its code, or else as its decoded mode does (60_exceptions.md R403). -/
theorem firstError_of_composite (hr : rsvField q.cw = 0) (hc : cmdField q.cw = 0) :
    firstError p q = (decodeMode p (modeField q.cw).toNat).elim 1 (modeError q) := by
  unfold rsvField cmdField at *
  rw [firstError, if_neg (by rw [hr, hc]; decide), if_pos hc, modeField]
  cases decodeMode p (q.cw.extractLsb' 0 16).toNat <;> rfl

/-- Of commands 1 to 4 only LDPAT.PRESET has an error after the decode (60_exceptions.md R403). -/
theorem firstError_of_pattern_command {c : BitVec 3} (hr : rsvField q.cw = 0) (hc : cmdField q.cw = c) (h0 : c ≠ 0)
    (h5 : ¬ 5 ≤ c.toNat) : firstError p q = if c = 3 ∧ 4 < q.arg.toNat then 5 else 0 := by
  subst hc
  exact (if_neg (not_or.mpr ⟨not_not.mpr hr, h5⟩)).trans (if_neg h0)

/-- No error has code 7 (60_exceptions.md R401). -/
theorem firstError_ne_seven (p : OverlapPolicy) (q : Ports) : firstError p q ≠ 7 := by
  unfold firstError
  repeat' split
  all_goals decide

end FirstError

theorem exec_ldpatPreset_endsWith (s : State) :
    EndsWith (exec .ldpatPreset s) (if 4 < s.ports.arg.toNat then 5 else 0) := by
  split
  · next hlarge => exact exec_ldpatPreset_of_none (presetPat_eq_none hlarge) ▸ endsWith_failsWith s 5
  · next hsmall =>
    obtain ⟨g, hg⟩ := Option.isSome_iff_exists.mp ((presetPat_isSome s.ports.arg).mpr (Nat.le_of_not_lt hsmall))
    exact exec_ldpatPreset_of_some hg ▸ endsWith_answers _ _

/-- The command on the ports ends with the first error that holds for it (60_exceptions.md R403). -/
theorem runPresented_endsWith (s : State) : EndsWith (runPresented s) (firstError s.cfg.overlap s.ports) := by
  unfold runPresented
  rcases decode_cases s.cfg.overlap s.ports.cw with ⟨hr, hd⟩ | ⟨hr, hc, md, hm, hd⟩ | ⟨hr, hc, hm, hd⟩ | ⟨hr, hc, hd⟩ |
    ⟨hr, hc, hd⟩ | ⟨hr, hc, hd⟩ | ⟨hr, hc, hd⟩ | ⟨_, hc, hd⟩ <;> rw [hd]
  · exact firstError_of_illegal (.inl hr) ▸ endsWith_raise .illegalCommand s
  · rw [firstError_of_composite hr hc, hm]
    exact exec_instrOfMode_endsWith md
  · rw [firstError_of_composite hr hc, hm]
    exact endsWith_raise .unsupportedMode s
  · rw [firstError_of_pattern_command hr hc (by decide) (by decide)]
    exact endsWith_driveOk ..
  · rw [firstError_of_pattern_command hr hc (by decide) (by decide)]
    exact endsWith_driveOk ..
  · rw [firstError_of_pattern_command hr hc (by decide) (by decide)]
    simpa only [true_and] using exec_ldpatPreset_endsWith s
  · rw [firstError_of_pattern_command hr hc (by decide) (by decide)]
    exact endsWith_driveOk ..
  · exact firstError_of_illegal (.inr hc) ▸ endsWith_raise .illegalCommand s

/-! ### The obligations -/

/-- Settles O22: of the two ways in which a command ends, only the error response has a status other than OK. -/
theorem errorResponseWritesNothing : Obligations.ErrorResponseWritesNothing :=
  fun _ _ _ _ _ => error_step_eq

/-- Settles O23: the status of the presented command, and no first error has code 7. -/
theorem statusIsFirstError : Obligations.StatusIsFirstError := by
  intro s q rest hs
  obtain ⟨t, r, ht, hrsp, hstatus⟩ := runPresented_endsWith (present q rest s)
  exact ⟨t, r, (step_of_command hs).trans ht, hrsp, hstatus, hstatus ▸ firstError_ne_seven _ _⟩

/-- Settles O25: the failed command leaves only its ports and its response, and presenting the next command replaces both. -/
theorem errorLeavesNoTrace : Obligations.ErrorLeavesNoTrace := by
  intro s t q q' rest r hs ht hr hne
  rw [error_step_eq hs ht hr hne]
  rfl

end Sys2Proof
end

