-- ==== Sys2Proof/Proofs/DecodeEncode.lean ====
section
/-! PROOFS. Decoder and encoder against each other (30_encoding.md R86): every well-formed instruction is decoded from its own word,
and from which other words, and the statements about words and the modes they name. -/

open Sys2Proof.Machine Sys2Proof.Spec

namespace Sys2Proof

/-! ### Every well-formed instruction has a word -/

/-- The four bits of a base code can name any operand, inversion and family (30_encoding.md R75, R81). -/
theorem baseMode_surjective (o : BoolOperand) (inv : Bool) (fam : Family) (mod : Modifier) :
    ∃ b : BitVec 4, baseMode b mod = .bool o inv fam mod := by
  have table : ∀ o ∈ [BoolOperand.source, .pattern], ∀ inv : Bool, ∀ fam ∈ [Family.copy, .or, .xor, .bic],
      ∃ b : BitVec 4, baseMode b .none = .bool o inv fam .none := by decide
  obtain ⟨b, hb⟩ := table o (by cases o <;> decide) inv fam (by cases fam <;> decide)
  exact ⟨b, baseMode_withModifier hb mod⟩

theorem arithOpOf_surjective (aop : ArithOp) : ∃ a : BitVec 3, arithOpOf a = aop := by
  cases aop
  exacts [⟨0, rfl⟩, ⟨1, rfl⟩, ⟨2, rfl⟩, ⟨3, rfl⟩, ⟨4, rfl⟩, ⟨5, rfl⟩, ⟨6, rfl⟩, ⟨7, rfl⟩]

/-- The mode of a well-formed instruction has a code: of the base modes under a modifier only those of codes 64 and 65 depend on
the policy (30_encoding.md R78 to R80). -/
theorem exists_code_of_wellFormed {p : OverlapPolicy} {md : Mode} (h : (instrOfMode md).wellFormed p = true) :
    ∃ m, decodeMode p m = some md := by
  cases md with
  | text => exact ⟨49, decodeMode_text p⟩
  | arith aop =>
    obtain ⟨a, rfl⟩ := arithOpOf_surjective aop
    exact ⟨_, decodeMode_arith p a⟩
  | bool o inv fam mod =>
    obtain ⟨b, hb⟩ := baseMode_surjective o inv fam mod
    rw [← hb] at h ⊢
    cases mod with
    | none => exact ⟨_, decodeMode_base p b⟩
    | hilite =>
      have policy : ∀ b : BitVec 4, (instrOfMode (baseMode b .hilite)).wellFormed p = true → b.toNat ≤ 13 ∨ p = .hiliteFirst := by
        cases p <;> decide
      exact ⟨_, decodeMode_hilite (policy b h)⟩
    | dither =>
      have policy : ∀ b : BitVec 4, (instrOfMode (baseMode b .dither)).wellFormed p = true → 2 ≤ b.toNat ∨ p = .ditherFirst := by
        cases p <;> decide
      exact ⟨_, decodeMode_dither (policy b h)⟩

/-- The decoder undoes the encoder on every instruction that has a word (30_encoding.md R86). -/
theorem decode_encode {p : OverlapPolicy} {i : Instr} (h : i.wellFormed p = true) : decode p (encode i) = .ok i := by
  cases hi : i.mode with
  | some md =>
    obtain rfl := instrOfMode_of_mode hi
    obtain ⟨m, hm⟩ := exists_code_of_wellFormed h
    rw [encode_of_decodeMode hm, decode_ofNat_of_some hm]
  | none => cases i <;> cases hi <;> rfl

/-! ### The upper half of a word -/

/-- The upper half of a word is its command and its reserved field (30_encoding.md R70). -/
theorem upper_eq_iff (w w' : Word) :
    w.extractLsb' 16 16 = w'.extractLsb' 16 16 ↔ rsvField w = rsvField w' ∧ cmdField w = cmdField w' := by
  have hw := w.isLt
  have hw' := w'.isLt
  simp only [← BitVec.toNat_inj, rsvField_toNat, cmdField_toNat, BitVec.extractLsb'_toNat, Nat.shiftRight_eq_div_pow]
  omega

/-- A command but COMPOSITE is decoded from its upper half alone (30_encoding.md R72). -/
theorem decode_of_upper_eq (p : OverlapPolicy) {w w' : Word} (h : w.extractLsb' 16 16 = w'.extractLsb' 16 16)
    (hc : cmdField w' ≠ 0) : decode p w = decode p w' := by
  obtain ⟨hrsv, hcmd⟩ := (upper_eq_iff w w').mp h
  exact decode_congr hrsv hcmd fun _ h0 => absurd (hcmd ▸ h0) hc

/-- What the fields of a word that decodes say of its instruction (30_encoding.md R71, R81). -/
theorem decode_ok_cases {p : OverlapPolicy} {w : Word} {i : Instr} (h : decode p w = .ok i) :
    rsvField w = 0 ∧
      ((cmdField w = 0 ∧ ∃ md, decodeMode p (modeField w).toNat = some md ∧ i = instrOfMode md) ∨
        (cmdField w = 1 ∧ i = .ldpatSeed) ∨ (cmdField w = 2 ∧ i = .ldpatSolid) ∨ (cmdField w = 3 ∧ i = .ldpatPreset) ∨
        (cmdField w = 4 ∧ i = .sample)) := by
  rcases decode_cases p w with ⟨_, hd⟩ | ⟨hr, hc, md, hm, hd⟩ | ⟨_, _, _, hd⟩ | ⟨hr, hc, hd⟩ | ⟨hr, hc, hd⟩ | ⟨hr, hc, hd⟩ |
    ⟨hr, hc, hd⟩ | ⟨_, _, hd⟩ <;> rw [hd] at h <;> cases h
  · exact ⟨hr, .inl ⟨hc, md, hm, rfl⟩⟩
  · exact ⟨hr, .inr (.inl ⟨hc, rfl⟩)⟩
  · exact ⟨hr, .inr (.inr (.inl ⟨hc, rfl⟩))⟩
  · exact ⟨hr, .inr (.inr (.inr (.inl ⟨hc, rfl⟩)))⟩
  · exact ⟨hr, .inr (.inr (.inr (.inr ⟨hc, rfl⟩)))⟩

/-- A word that decodes has the upper half of its instruction's own word. -/
theorem upper_eq_of_decode {p : OverlapPolicy} {w : Word} {i : Instr} (h : decode p w = .ok i) :
    w.extractLsb' 16 16 = (encode i).extractLsb' 16 16 := by
  obtain ⟨hr, ⟨_, md, _, rfl⟩ | ⟨hc, rfl⟩ | ⟨hc, rfl⟩ | ⟨hc, rfl⟩ | ⟨hc, rfl⟩⟩ := decode_ok_cases h
  · rw [encode_of_decode_composite (mode_instrOfMode md) h]
  all_goals exact (upper_eq_iff _ _).mpr ⟨hr, hc⟩

theorem mode_of_decode_composite {p : OverlapPolicy} {w : Word} {i : Instr} (h : decode p w = .ok i) (hc : cmdField w = 0) :
    i.mode = decodeMode p (modeField w).toNat := by
  obtain ⟨_, ⟨_, md, hm, rfl⟩ | ⟨hc', _⟩ | ⟨hc', _⟩ | ⟨hc', _⟩ | ⟨hc', _⟩⟩ := decode_ok_cases h
  · rw [hm, mode_instrOfMode]
  all_goals simp [hc] at hc'

theorem cmdField_encode_ne_zero {i : Instr} (hi : i.mode = none) : cmdField (encode i) ≠ 0 := by
  cases i <;> cases hi <;> decide

/-! ### The obligations -/

/-- Settles O3: a word that decodes shares its upper half with its instruction's own word, and no two words decode to one COMPOSITE;
back, the instruction's own word decodes to it, and a pattern command ignores the rest. -/
theorem decodeExactlyTheEncodedWords : Obligations.DecodeExactlyTheEncodedWords := by
  refine fun p w i => ⟨fun h => ⟨wellFormed_of_decode h, upper_eq_of_decode h, fun hsome => ?_⟩, fun ⟨hwf, hupper, hword⟩ => ?_⟩
  · obtain ⟨md, hi⟩ := Option.isSome_iff_exists.mp hsome
    exact (encode_of_decode_composite hi h).symm
  · cases hi : i.mode with
    | some md => rw [hword (by simp [hi]), decode_encode hwf]
    | none => rw [decode_of_upper_eq p hupper (cmdField_encode_ne_zero hi), decode_encode hwf]

/-- Settles O2: the word of an instruction that names a mode is the code of that mode, and the four other words stand alone. -/
theorem decodeAfterEncode : Obligations.DecodeAfterEncode :=
  fun _ _ => decode_encode

/-- Settles O10: cmd 0 is decoded by its mode code, and an instruction that names a mode means COMPOSITE of it. -/
theorem compositeRunsItsDecodedMode : Obligations.CompositeRunsItsDecodedMode :=
  fun _ _ _ h hc => ⟨mode_of_decode_composite h hc, fun s _ hi => exec_of_mode hi s⟩

/-- Settles O1: eleven of the words are those of their instructions, and the LDPAT.SEED with 32 in its ignored mode field has the
upper half of its own. -/
theorem specWordsDecode : Obligations.SpecWordsDecode := by
  intro p
  have named (i : Instr) (hi : i.wellFormed p = true) : decode p (encode i) = .ok i := decode_encode hi
  have seed : decode p 0x20000020 = .ok .ldpatSeed :=
    (decode_of_upper_eq p (by decide) (by decide)).trans (named .ldpatSeed rfl)
  exact ⟨named .srcCopy rfl, named .notPatXor rfl, named .blend rfl, named .grayishText rfl, named .hiliteNotPatOr rfl,
    named .ditherNotPatBic rfl, seed, named .ldpatSolid rfl, named .ldpatPreset rfl, named .sample rfl,
    decode_encode (i := .ditherSrcCopy) rfl, decode_encode (i := .hiliteNotPatBic) rfl⟩

end Sys2Proof
end

