-- ==== Sys2Proof/Proofs/Steps.lean ====
section
/-! PROOFS. The step of the block (70_reset_and_hazards.md, 60_exceptions.md, 10_state.md): what every step leaves, the invariant,
and the statements about steps, reset, `PAT` and the status. -/

open Sys2Proof.Machine Sys2Proof.Spec

namespace Sys2Proof

/-! ### One step, by the host's next event -/

theorem step_of_no_event {s : State} (hs : s.script = []) : step s = .next (idle s) := by
  simp only [step, hs]

theorem step_of_reset {s : State} {rest : List HostEvent} (hs : s.script = .reset :: rest) :
    step s = .next (takeReset rest s) := by
  simp only [step, hs]

theorem step_of_decode_ok {s : State} {q : Ports} {rest : List HostEvent} {i : Instr} (hs : s.script = .command q :: rest)
    (hd : decode s.cfg.overlap q.cw = .ok i) : step s = exec i (present q rest s) := by
  simp [step_of_command hs, runPresented, hd]

/-- Only the three loads name no mode and are not SAMPLE. -/
theorem load_of_mode_none {i : Instr} (hi : i.mode = none) (hsample : i ≠ .sample) :
    i = .ldpatSeed ∨ i = .ldpatSolid ∨ i = .ldpatPreset := by
  cases i <;> cases hi
  · exact .inl rfl
  · exact .inr (.inl rfl)
  · exact .inr (.inr rfl)
  · exact absurd rfl hsample

/-- No instruction faults or is refused (60_exceptions.md R406). -/
theorem exec_next (i : Instr) (s : State) : ∃ t, exec i s = .next t := by
  rcases exec_cases i s with ⟨_, _, _, _, hn⟩ | ⟨_, hn⟩ | ⟨_, _, _, hn⟩ | ⟨_, hn⟩ <;> exact ⟨_, hn⟩

theorem step_next (s : State) : ∃ t, step s = .next t := by
  rcases step_cases s with ⟨_, hn⟩ | ⟨_, _, hn⟩ | ⟨q, rest, i, _, _, hn⟩ | ⟨_, _, _, _, _, hn⟩
  · exact ⟨_, hn⟩
  · exact ⟨_, hn⟩
  · exact hn ▸ exec_next i (present q rest s)
  · exact ⟨_, hn⟩

/-! ### The response as a function of `PAT` and the ports -/

/-- At two states of the same parameters and ports, and of the same pattern unless the mode reads none, a COMPOSITE answers alike
and changes nothing else (10_state.md R33, 44_pattern_tile_lut.md R314). -/
theorem exec_mode_same_response {i : Instr} {md : Mode} {s u : State} (hi : i.mode = some md) (hports : s.ports = u.ports)
    (hcfg : s.cfg = u.cfg) (hpat : s.pat = u.pat ∨ md.category ≠ .boolPat) :
    ∃ r, exec i s = .next { s with rsp := some r } ∧ exec i u = .next { u with rsp := some r } := by
  rw [exec_of_mode hi, exec_of_mode hi]
  exact composite_same_response (compositePixel_congr hports hcfg hpat) (by simp only [oneBit, hports]) (by rw [hports])

/-- What a load answers, and the pattern it writes if it does not fail, are a function of the ports (44_pattern_tile_lut.md R310 to
R312). -/
theorem exec_load_eq {i : Instr} (hi : i = .ldpatSeed ∨ i = .ldpatSolid ∨ i = .ldpatPreset) (q : Ports) :
    ∃ (r : Response) (g : Option Grid), ∀ s : State, s.ports = q →
      exec i s = .next { s with rsp := some r, pat := g.getD s.pat } := by
  rcases hi with rfl | rfl | rfl
  · exact ⟨⟨q.dstPix, 0, 0⟩, some (q.arg ++ q.arg), by rintro s rfl; exact exec_ldpatSeed s⟩
  · exact ⟨⟨q.dstPix, 0, 0⟩, some (if q.arg.getLsbD 0 then 0xFFFFFFFFFFFFFFFF else 0x0000000000000000),
      by rintro s rfl; exact exec_ldpatSolid s⟩
  · cases hp : presetPat q.arg with
    | some g => exact ⟨⟨q.dstPix, 0, 0⟩, some g, by rintro s rfl; exact exec_ldpatPreset_of_some hp⟩
    | none => exact ⟨⟨q.dstPix, 0, 5⟩, none, by rintro s rfl; exact exec_ldpatPreset_of_none hp⟩

/-- At two states of the same `PAT`, ports and parameters an instruction answers alike and leaves the same `PAT`
(10_state.md R33). -/
theorem exec_same_response (i : Instr) {s u : State} (hports : s.ports = u.ports) (hcfg : s.cfg = u.cfg) (hpat : s.pat = u.pat) :
    ∃ r g, exec i s = .next { s with rsp := some r, pat := g } ∧ exec i u = .next { u with rsp := some r, pat := g } := by
  cases hi : i.mode with
  | some md =>
    obtain ⟨r, hs, hu⟩ := exec_mode_same_response hi hports hcfg (.inl hpat)
    exact ⟨r, u.pat, hs.trans (by rw [← hpat]), hu⟩
  | none =>
    by_cases hsample : i = .sample
    · subst hsample
      refine ⟨_, u.pat, ?_, exec_sample u⟩
      rw [exec_sample, tileBit, tileBit, hports, hpat, ← hpat]
    · obtain ⟨r, g, h⟩ := exec_load_eq (load_of_mode_none hi hsample) u.ports
      exact ⟨r, g.getD u.pat, hpat ▸ h s hports, h u rfl⟩

/-! ### The invariant -/

/-- An error response is legal for any command (60_exceptions.md R401, R402). -/
theorem responseLegal_error (q : Ports) (e : ErrorKind) : ResponseLegal q ⟨q.dstPix, 0, errorCode e⟩ where
  neverSeven := (errorCode_ne e).2
  errorDrivesDst := fun _ => ⟨rfl, rfl⟩
  bitOnlyBySample := fun _ => rfl
  pixOnlyByComposite := fun _ => rfl
  oneBitResult := fun _ _ h => absurd h (errorCode_ne e).1

/-- A COMPOSITE that ends with OK drives a pixel in the destination's format and no bit (10_state.md R28, R30). -/
theorem responseLegal_composite {q : Ports} (hc : cmdField q.cw = 0) (pix : Pixel) :
    ResponseLegal q ⟨inFormat (q.dst1bit == 1) pix, 0, statusOk⟩ where
  neverSeven := (by decide : statusOk ≠ 7)
  errorDrivesDst := fun h => absurd rfl h
  bitOnlyBySample := fun _ => rfl
  pixOnlyByComposite := fun h => absurd hc h
  oneBitResult := fun _ h1 _ => by simp [h1]

/-- A pattern command that ends with OK drives the destination pixel, and a bit if it is SAMPLE (10_state.md R28). -/
theorem responseLegal_pattern_command {q : Ports} {bit : Bit} (hc : cmdField q.cw ≠ 0) (hbit : cmdField q.cw ≠ 4 → bit = 0) :
    ResponseLegal q ⟨q.dstPix, bit, statusOk⟩ where
  neverSeven := (by decide : statusOk ≠ 7)
  errorDrivesDst := fun h => absurd rfl h
  bitOnlyBySample := hbit
  pixOnlyByComposite := fun _ => rfl
  oneBitResult := fun h => absurd h hc

/-- A word of cmd 0 decodes to an instruction that names a mode, and any other word to one that names none
(30_encoding.md R71). -/
theorem cmdField_eq_zero_iff_of_decode {p : OverlapPolicy} {w : Word} {i : Instr} (h : decode p w = .ok i) :
    cmdField w = 0 ↔ i.mode.isSome = true := by
  obtain ⟨_, ⟨hc, md, _, rfl⟩ | ⟨hc, rfl⟩ | ⟨hc, rfl⟩ | ⟨hc, rfl⟩ | ⟨hc, rfl⟩⟩ := decode_ok_cases h
  · simp [hc]
  all_goals rw [hc]; decide

theorem cmdField_of_decode_sample {p : OverlapPolicy} {w : Word} (h : decode p w = .ok .sample) : cmdField w = 4 := by
  obtain ⟨_, ⟨_, md, _, hi⟩ | ⟨_, hi⟩ | ⟨_, hi⟩ | ⟨_, hi⟩ | ⟨hc, _⟩⟩ := decode_ok_cases h
  case inr.inr.inr.inr => exact hc
  case inl => nomatch (congrArg Instr.mode hi).trans (mode_instrOfMode md)
  all_goals cases hi

/-- Whatever instruction the word on the ports stands for, its response is legal for the command. -/
theorem exec_responseLegal {i : Instr} {s t : State} (hd : decode s.cfg.overlap s.ports.cw = .ok i) (ht : exec i s = .next t) :
    ∀ r, t.rsp = some r → ResponseLegal s.ports r := by
  have hzero := cmdField_eq_zero_iff_of_decode hd
  rintro r hr
  rcases exec_cases i s with ⟨md, pix, hi, _, hn⟩ | ⟨e, hn⟩ | ⟨g, hi, _, hn⟩ | ⟨rfl, hn⟩ <;>
    obtain rfl := Host.Outcome.next.inj (ht.symm.trans hn) <;> cases hr
  · exact responseLegal_composite (hzero.mpr (by simp [hi])) pix
  · exact responseLegal_error s.ports e
  · exact responseLegal_pattern_command (mt hzero.mp (by simp [hi])) fun _ => rfl
  · exact responseLegal_pattern_command (mt hzero.mp (by decide)) fun h4 => absurd (cmdField_of_decode_sample hd) h4

/-- Every step keeps the parameters, draws at least as often, and drives a legal response or none. -/
theorem inv_of_step {s t : State} (hs : s.Inv) (hcfg : t.cfg = s.cfg) (hdraws : s.draws ≤ t.draws)
    (hrsp : ∀ r, t.rsp = some r → ResponseLegal t.ports r) : t.Inv where
  matrixPermutes := hcfg ▸ hs.matrixPermutes
  resetTaken := by have := hs.resetTaken; omega
  responseLegal := hrsp

/-! ### The obligations -/

/-- Settles O16: each kind of step keeps the parameters and drives no response, the error response, or its instruction's. -/
theorem invKeptByStep : Obligations.InvKeptByStep := by
  intro s t hs ht
  rcases step_cases s with ⟨_, hn⟩ | ⟨rest, _, hn⟩ | ⟨q, rest, i, _, hd, hn⟩ | ⟨q, rest, e, _, _, hn⟩ <;>
    have ht := ht.symm.trans hn
  case inr.inr.inl =>
    obtain ⟨hcfg, hdraws, hports, _⟩ := exec_cfg ht.symm
    exact inv_of_step hs hcfg hdraws.ge (hports ▸ exec_responseLegal hd ht.symm)
  all_goals obtain rfl := Host.Outcome.next.inj ht
  · exact inv_of_step hs rfl le_rfl nofun
  · exact inv_of_step hs rfl (Nat.le_succ _) nofun
  · refine inv_of_step hs rfl le_rfl fun r hr => ?_
    cases hr
    exact responseLegal_error q e

/-- Settles O17: presented with one command, the two states agree on all that an instruction, or an error, reads. -/
theorem responseFromPatAndPortsOnly : Obligations.ResponseFromPatAndPortsOnly := by
  intro s u q rest rest' hs hu hpat hcfg
  cases hd : decode s.cfg.overlap q.cw with
  | error e =>
    refine ⟨_, s.pat, step_of_decode_error hs hd, (step_of_decode_error hu (hcfg ▸ hd)).trans ?_⟩
    rw [hpat]
    rfl
  | ok i =>
    rw [step_of_decode_ok hs hd, step_of_decode_ok hu (hcfg ▸ hd)]
    exact exec_same_response (s := present q rest s) (u := present q rest' u) i rfl hcfg hpat

/-- Settles O19: of all that a step can do, only a reset and a load that ends with OK write `PAT`. -/
theorem patWrittenOnlyByLoadsAndReset : Obligations.PatWrittenOnlyByLoadsAndReset := by
  intro s t ht hpat
  rcases step_cases s with ⟨_, hn⟩ | ⟨rest, hs, _⟩ | ⟨q, rest, i, hs, hd, hn⟩ | ⟨q, rest, e, _, _, hn⟩
  case inr.inl => exact .inl ⟨rest, hs⟩
  case inr.inr.inl =>
    rcases exec_cases i (present q rest s) with ⟨_, _, _, _, hx⟩ | ⟨_, hx⟩ | ⟨g, hi, hsample, hx⟩ | ⟨_, hx⟩ <;>
      obtain rfl := Host.Outcome.next.inj (ht.symm.trans (hn.trans hx))
    case inr.inr.inl => exact .inr ⟨q, rest, i, _, hs, hd, load_of_mode_none hi hsample, rfl, rfl⟩
    all_goals exact absurd rfl hpat
  all_goals
    obtain rfl := Host.Outcome.next.inj (ht.symm.trans hn)
    exact absurd rfl hpat

/-- Settles O20: a mode that is no pattern mode computes its pixel without `PAT`, and a load reads its argument alone. -/
theorem patReadOnlyByPatternModes : Obligations.PatReadOnlyByPatternModes := by
  intro i s g hsample hcat
  cases hi : i.mode with
  | some md =>
    obtain ⟨r, ht, hu⟩ := exec_mode_same_response (s := s) (u := { s with pat := g }) hi rfl rfl (.inr (hcat md hi))
    exact ⟨_, _, ht, hu, rfl⟩
  | none =>
    obtain ⟨r, o, h⟩ := exec_load_eq (load_of_mode_none hi hsample) s.ports
    exact ⟨_, _, h s rfl, h { s with pat := g } rfl, rfl⟩

/-- Settles O21: a step without a command drives no response, and a command ends with its first error, which is never 7. -/
theorem statusSevenNeverDriven : Obligations.StatusSevenNeverDriven := by
  intro s t r ht hr
  have command {q : Ports} {rest : List HostEvent} (hs : s.script = .command q :: rest) : r.status ≠ 7 := by
    obtain ⟨t', r', ht', hr', _, hseven⟩ := statusIsFirstError s q rest hs
    obtain rfl := Host.Outcome.next.inj (ht.symm.trans ht')
    obtain rfl := Option.some.inj (hr.symm.trans hr')
    exact hseven
  rcases step_cases s with ⟨_, hn⟩ | ⟨_, _, hn⟩ | ⟨_, _, _, hs, _⟩ | ⟨_, _, _, hs, _⟩
  case inr.inr.inl => exact command hs
  case inr.inr.inr => exact command hs
  all_goals
    obtain rfl := Host.Outcome.next.inj (ht.symm.trans hn)
    cases hr

/-- Settles O11: presenting the command is the update written out in the statement. -/
theorem stepRunsPresentedCommand : Obligations.StepRunsPresentedCommand :=
  fun _ _ _ _ => step_of_decode_ok

/-- Settles O12: the two other kinds of step, by the head of the script. -/
theorem stepWithoutCommand : Obligations.StepWithoutCommand :=
  fun _ => ⟨step_of_no_event, fun _ => step_of_reset⟩

/-- Settles O13: every kind of step ends with a next state. -/
theorem noStepStopsTheBlock : Obligations.NoStepStopsTheBlock :=
  step_next

/-- Settles O14: the fields of the reset state. -/
theorem resetLeavesADrawnPattern : Obligations.ResetLeavesADrawnPattern :=
  ⟨afterReset_pat _ 0, afterReset_rsp _ 0, afterReset_script _ 0, congrArg Params.overlap (afterReset_cfg _ 0),
    congrArg Params.matrix (afterReset_cfg _ 0)⟩

/-- Settles O15: no entry of the Bayer matrix repeats, draw 0 has been taken, and no response is driven. -/
theorem invAtReset : Obligations.InvAtReset where
  matrixPermutes := by decide
  resetTaken := Nat.succ_ne_zero 0
  responseLegal := nofun

end Sys2Proof
end

