-- ==== Sys2Proof/Proofs/LastLoad.lean ====
section
/-! PROOFS. A pattern load and the command after it (70_reset_and_hazards.md R509, 44_pattern_tile_lut.md R310 to R313). -/

open Sys2Proof.Machine Sys2Proof.Spec

namespace Sys2Proof

/-- Two steps of the machine are one step and then the step of the state it leaves, as neither stops. -/
theorem run_two {s t : State} (h : step s = .next t) : Host.Core.run core 2 s = step t := by
  obtain ⟨u, hu⟩ := step_next t
  have hs : core.step s = .next t := h
  have ht : core.step t = .next u := hu
  simp only [Host.Core.run, hs, ht]
  exact hu.symm

/-- The index of a preset load, by the table: the pattern it has, or none and then `PAT` is kept (44_pattern_tile_lut.md R305,
R312). -/
theorem presetPat_of_indexTable {index : Word} {old g : Grid}
    (h : (index = 0 ∧ g = 0x0000000000000000) ∨ (index = 1 ∧ g = 0xFFFFFFFFFFFFFFFF) ∨ (index = 2 ∧ g = 0xAA55AA55AA55AA55) ∨
      (index = 3 ∧ g = 0x8822882288228822) ∨ (index = 4 ∧ g = 0x77DD77DD77DD77DD) ∨ (4 < index.toNat ∧ g = old)) :
    presetPat index = some g ∨ (presetPat index = none ∧ g = old) := by
  rcases h with ⟨rfl, rfl⟩ | ⟨rfl, rfl⟩ | ⟨rfl, rfl⟩ | ⟨rfl, rfl⟩ | ⟨rfl, rfl⟩ | ⟨hlarge, hg⟩
  case inr.inr.inr.inr.inr => exact .inr ⟨presetPat_eq_none hlarge, hg⟩
  all_goals exact .inl rfl

/-- The step of a load, failed or not, leaves the pattern that `LoadLeaves` gives, and beside it only its ports and its response. -/
theorem step_of_loadLeaves {s : State} {q : Ports} {rest : List HostEvent} {g : Grid} (hs : s.script = .command q :: rest)
    (hg : LoadLeaves s.cfg.overlap q s.pat g) :
    ∃ r, step s = .next { s with pat := g, ports := q, script := rest, rsp := some r } := by
  rcases hg with ⟨hd, rfl⟩ | ⟨hd, rfl⟩ | ⟨hd, hpreset⟩ | ⟨hd, rfl⟩
  · exact ⟨_, (step_of_decode_ok hs hd).trans (exec_ldpatSeed _)⟩
  · exact ⟨_, (step_of_decode_ok hs hd).trans (exec_ldpatSolid _)⟩
  · rcases presetPat_of_indexTable hpreset with hp | ⟨hp, rfl⟩
    · exact ⟨_, (step_of_decode_ok hs hd).trans (exec_ldpatPreset_of_some hp)⟩
    · exact ⟨_, (step_of_decode_ok hs hd).trans (exec_ldpatPreset_of_none hp)⟩
  · exact ⟨_, step_of_decode_error hs hd⟩

/-- PAT_COPY answers the colour that the pattern bit selects, on both depths (41_boolean_transfer_alu.md R138). -/
theorem exec_patCopy (s : State) :
    exec .patCopy s = answers s
      (if s.ports.dst1bit = 1 then lowBit (if tileBit s then s.ports.fg else s.ports.bg)
        else if tileBit s then s.ports.fg else s.ports.bg) := by
  obtain ⟨colour, oneBit⟩ := (patCopyResults.2 s).1
  split
  · next h1 => exact oneBit h1
  · next h1 => exact colour ((BitVec.eq_zero_or_eq_one _).resolve_right h1)

/-- Settles O24: the second step starts from the pattern the first one left, and presenting the second command replaces the ports
and the response of the first. -/
theorem sampleSeesLastLoad : Obligations.SampleSeesLastLoad := by
  intro s q q' rest i g hs hd hg
  obtain ⟨r, hload⟩ := step_of_loadLeaves hs hg
  have hrun : Host.Core.run core 2 s = exec i { s with pat := g, ports := q', script := rest, rsp := none } :=
    (run_two hload).trans (step_of_decode_ok rfl hd)
  refine ⟨hrun, ?sample, ?patCopy⟩
  case sample =>
    rintro rfl
    exact hrun.trans (exec_sample _)
  case patCopy =>
    rintro rfl
    exact hrun.trans (exec_patCopy _)

end Sys2Proof
end

