-- ==== Sys2Proof/Proofs/UnitLaws.lean ====
section
/-! PROOFS. Laws of the units by themselves: the mix (41_boolean_transfer_alu.md R125), the arithmetic unit
(42_arithmetic_blend_unit.md R218) and the tiling of a sample (44_pattern_tile_lut.md R302). -/

open Sys2Proof.Machine Sys2Proof.Spec

namespace Sys2Proof

/-! ### Channel by channel -/

theorem lanes_swap (f : Nat → Nat → Nat) (s d : Pixel) : lanes f s d = lanes (fun b a => f a b) d s := rfl

/-- A per-channel operation that answers its first operand leaves the first pixel. -/
theorem lanes_eq_left {f : Nat → Nat → Nat} (s d : Pixel) (h : ∀ a b, a < 65536 → b < 65536 → f a b = a) :
    lanes f s d = s := by
  rw [lanes_congr s d h]
  simp only [lanes, BitVec.ofNat_toNat, BitVec.setWidth_eq, rgb_channels]

theorem lanes_eq_right {f : Nat → Nat → Nat} (s d : Pixel) (h : ∀ a b, a < 65536 → b < 65536 → f a b = b) :
    lanes f s d = d :=
  (lanes_swap f s d).trans (lanes_eq_left d s fun b a hb ha => h a b ha hb)

/-- An operation after another is one operation on each channel, where the inner one stays in its channel
(42_arithmetic_blend_unit.md R201). -/
theorem lanes_lanes (f g : Nat → Nat → Nat) (s d : Pixel) :
    lanes f s (lanes g s d) = lanes (fun a b => f a (g a b % 65536)) s d := by
  rw [lanes, redOf_lanes, greenOf_lanes, blueOf_lanes]
  simp only [BitVec.toNat_ofNat]
  rfl

/-! ### The mix -/

/-- A channel of a mix is its formula: nothing is lost in narrowing it (41_boolean_transfer_alu.md R125). -/
theorem channel_mix {ch : Pixel → Chan} (hch : ch = redOf ∨ ch = greenOf ∨ ch = blueOf) (a b : Pixel) {c : Nat}
    (hc : c ≤ 65535) : (ch (mix a b c)).toNat = mixChan c (ch a).toNat (ch b).toNat := by
  have narrow (p q : Chan) : (BitVec.ofNat 16 (mixChan c p.toNat q.toNat)).toNat = mixChan c p.toNat q.toNat :=
    Nat.mod_eq_of_lt (mixChan_lt c _ _ hc p.isLt q.isLt)
  rcases hch with rfl | rfl | rfl
  · rw [mix, redOf_lanes, narrow]
  · rw [mix, greenOf_lanes, narrow]
  · rw [mix, blueOf_lanes, narrow]

theorem mix_zero (a b : Pixel) : mix a b 0 = a :=
  lanes_eq_left a b fun p q _ _ => by simp [mixChan]

theorem mix_full (a b : Pixel) : mix a b 65535 = b :=
  lanes_eq_right a b fun p q _ _ => by simp [mixChan]

/-- BLEND is the mix of the destination with the source (42_arithmetic_blend_unit.md R210). -/
theorem arithUnit_blend_eq_mix (S D bk : Pixel) (w : Nat) : arithUnit .blend S D bk w = mix D S w := rfl

/-! ### The arithmetic unit -/

/-- Subtracting what was added, both modulo 65536, is the identity on a channel (42_arithmetic_blend_unit.md R218). -/
theorem subOverChan_addOverChan {a d : Nat} (hd : d < 65536) : subOverChan a (addOverChan a d % 65536) = d := by
  unfold subOverChan addOverChan
  omega

/-! ### Coordinates -/

/-- Eight is nothing to the three low bits, also where the sum wraps (44_pattern_tile_lut.md R302). -/
theorem extractLsb'_add_eight (x : Word) : (x + 8).extractLsb' 0 3 = x.extractLsb' 0 3 := by
  apply BitVec.eq_of_toNat_eq
  simp only [BitVec.extractLsb'_toNat, Nat.shiftRight_zero, BitVec.toNat_add, BitVec.ofNat_eq_ofNat, BitVec.toNat_ofNat]
  omega

/-! ### The obligations -/

/-- Settles O26: the formula of a channel, its bounds, and the ends and symmetry of the mix. -/
theorem weightedMixLaws : Obligations.WeightedMixLaws := by
  refine fun a b c hc => ⟨fun ch hch => ?_, mix_eq_weighted a b c, ?_, ?_, mix_invert a b hc⟩
  · rw [channel_mix hch a b hc]
    exact ⟨rfl, mixChan_between c _ _ hc⟩
  · rintro rfl
    exact mix_zero a b
  · rintro rfl
    exact mix_full a b

/-- Settles O27: only the three low bits of a coordinate are read. -/
theorem samplingTiles : Obligations.SamplingTiles := by
  intro g x y
  simp only [patSample, extractLsb'_add_eight, and_self]

/-- Settles O49: each law channel by channel, and that of BLEND as the symmetry of the mix. -/
theorem arithmeticLaws : Obligations.ArithmeticLaws := by
  refine fun S D bk w hw => ⟨?_, ?_, ?_, ?_⟩
  · calc arithUnit .subOver S (arithUnit .addOver S D bk w) bk w
        = lanes (fun a d => subOverChan a (addOverChan a d % 65536)) S D := lanes_lanes subOverChan addOverChan S D
      _ = D := lanes_eq_right S D fun a d _ hd => subOverChan_addOverChan hd
  · exact (lanes_congr S D fun a d _ _ => Nat.max_comm a d).trans (lanes_swap ..)
  · exact (lanes_congr S D fun a d _ _ => Nat.min_comm a d).trans (lanes_swap ..)
  · rw [arithUnit_blend_eq_mix, arithUnit_blend_eq_mix, mix_invert S D hw]

end Sys2Proof
end

