-- ==== Sys2Proof/Proofs/IgnoredBits.lean ====
section
/-! PROOFS. What a COMPOSITE reads of its ports (10_state.md R30, 30_encoding.md R73, 40_mode_selector_mux.md R104): two states of
the same operands have the same result. -/

open Sys2Proof.Machine Sys2Proof.Spec

namespace Sys2Proof

/-- Two states that give a COMPOSITE the same operands, as it takes them from the ports (30_encoding.md R73,
40_mode_selector_mux.md R103, R104). -/
structure SameOperands (s u : State) : Prop where
  depth : oneBit s = oneBit u
  params : s.cfg = u.cfg
  operand : ∀ o, boolOperand o s = boolOperand o u
  weight : blendWeight s = blendWeight u
  column : coordX s = coordX u
  row : coordY s = coordY u
  src : srcOperand s = srcOperand u
  dst : dstOperand s = dstOperand u
  fore : ∀ mod, foreOperand mod s = foreOperand mod u
  back : ∀ mod, backOperand mod s = backOperand mod u

section SameOperands

variable {s u : State} (h : SameOperands s u)
include h

theorem boolPixel_congr (o : BoolOperand) (inv : Bool) (fam : Family) (mod : Modifier) :
    boolPixel o inv fam mod s = boolPixel o inv fam mod u := by
  simp only [boolPixel, h.operand, h.depth, h.params, h.column, h.row, h.dst, h.fore, h.back]

theorem arithPixel_congr (aop : ArithOp) : arithPixel aop s = arithPixel aop u := by
  simp only [arithPixel, h.weight, h.src, h.dst, h.back]

theorem textPixel_congr : textPixel s = textPixel u := by
  have hsource : sourceOperand s = sourceOperand u := h.operand .source
  simp only [textPixel, hsource, h.depth, h.params, h.column, h.row, h.dst, h.fore, h.back]

/-- Every unit reads the ports through the operands alone (40_mode_selector_mux.md R108). -/
theorem compositePixel_of_sameOperands (md : Mode) : compositePixel md s = compositePixel md u := by
  rw [compositePixel, compositePixel, ← h.depth]
  cases revertMode (oneBit s) md with
  | bool o inv fam mod => exact boolPixel_congr h o inv fam mod
  | arith aop => exact arithPixel_congr h aop
  | text => exact textPixel_congr h

/-- Two COMPOSITEs with the same operands end with one status, and with one pixel when that is OK. -/
theorem exec_of_sameOperands {i : Instr} {md : Mode} (hi : i.mode = some md) :
    ∃ (t v : State) (r r' : Response), exec i s = .next t ∧ t.rsp = some r ∧ exec i u = .next v ∧ v.rsp = some r' ∧
      r.status = r'.status ∧ (r.status = 0 → r.pix = r'.pix) := by
  rw [exec_of_mode hi, exec_of_mode hi, composite, composite, ← compositePixel_of_sameOperands h, ← h.depth]
  cases compositePixel md s with
  | ok pix => exact ⟨_, _, _, _, rfl, rfl, rfl, rfl, rfl, fun _ => rfl⟩
  | error e => exact ⟨_, _, _, _, rfl, rfl, rfl, rfl, rfl, fun h0 => absurd h0 (errorCode_ne e).1⟩

end SameOperands

/-- Two values that the destination's format does not tell apart are one operand (10_state.md R30). -/
theorem inFormat_eq_of_sameOperand {s : State} {a b : Pixel} (h : sameOperand s a b) :
    inFormat (oneBit s) a = inFormat (oneBit s) b := by
  obtain ⟨hbit, hcolour⟩ := h
  rcases BitVec.eq_zero_or_eq_one s.ports.dst1bit with h0 | h1
  · rw [oneBit_of_dst1bit_zero h0, hcolour h0]
  · rw [oneBit_of_dst1bit_one h1]
    exact hbit h1

/-- Only the three low bits of a coordinate are taken (30_encoding.md R73). -/
theorem extractLsb'_three_eq {x x' : Word} (h : x.toNat % 8 = x'.toNat % 8) : x.extractLsb' 0 3 = x'.extractLsb' 0 3 := by
  apply BitVec.eq_of_toNat_eq
  simpa only [BitVec.extractLsb'_toNat, Nat.shiftRight_zero] using h

/-- The pattern operand is fixed by `PAT` and the coordinates mod 8 (44_pattern_tile_lut.md R302, R314). -/
theorem patternOperand_congr {s u : State} (hpat : s.pat = u.pat) (hx : s.ports.x.toNat % 8 = u.ports.x.toNat % 8)
    (hy : s.ports.y.toNat % 8 = u.ports.y.toNat % 8) : patternOperand s = patternOperand u := by
  have htile : tileBit s = tileBit u := by simp only [tileBit, hpat, hx, hy]
  rw [patternOperand_eq, patternOperand_eq, htile]

/-- Ports that differ in ignored bits alone give the same operands. -/
theorem sameOperands_of_ignored_bits {s : State} {src dst fg bg : Pixel} {x y : Word}
    (hsrc : sameOperand s src s.ports.srcPix) (hdst : sameOperand s dst s.ports.dstPix) (hfg : sameOperand s fg s.ports.fg)
    (hbg : sameOperand s bg s.ports.bg) (hx : x.toNat % 8 = s.ports.x.toNat % 8) (hy : y.toNat % 8 = s.ports.y.toNat % 8) :
    SameOperands s { s with ports := { s.ports with srcPix := src, dstPix := dst, fg := fg, bg := bg, x := x, y := y } } := by
  have hfore := (inFormat_eq_of_sameOperand hfg).symm
  have hback := (inFormat_eq_of_sameOperand hbg).symm
  exact {
    depth := rfl
    params := rfl
    operand := fun o => by
      cases o with
      | source => rfl
      | pattern => exact congrArg some (patternOperand_congr rfl hx.symm hy.symm)
    weight := rfl
    column := (extractLsb'_three_eq hx).symm
    row := (extractLsb'_three_eq hy).symm
    src := (inFormat_eq_of_sameOperand hsrc).symm
    dst := (inFormat_eq_of_sameOperand hdst).symm
    fore := fun mod => by cases mod <;> assumption
    back := fun mod => by cases mod <;> assumption }

/-- Settles O18: the two presentations give one set of operands. -/
theorem ignoredBitsDoNotMatter : Obligations.IgnoredBitsDoNotMatter := by
  intro i s src dst fg bg x y hsome hsrc hdst hfg hbg hx hy
  obtain ⟨md, hi⟩ := Option.isSome_iff_exists.mp hsome
  exact exec_of_sameOperands (sameOperands_of_ignored_bits hsrc hdst hfg hbg hx hy) hi

end Sys2Proof
end
